-- ==== Sys2Proof/Word.lean ====
section
/-! DEFINITION. The word types of the core (10_state.md R20) and their plainest arithmetic (00_scope.md R8): every value is unsigned. -/

namespace Sys2Proof

/-- A byte: a general register, a timer, a memory cell (10_state.md R21, R28, R31). -/
abbrev Byte := BitVec 8

/-- A 16-bit word: the opcode, `I`, `pc`, a stack entry (00_scope.md R6, R7). -/
abbrev Word := BitVec 16

/-- A 4-bit number naming one of V0..VF (30_encoding.md R72, R75), or a logical key (46 R282). -/
abbrev Reg := BitVec 4

/-- VF, the register that doubles as the flag (10_state.md R22). -/
def vf : Reg := 15

/-- `zext_16` of a byte (00_scope.md R8). -/
def zextByte (b : Byte) : Word := b.setWidth 16

/-- `zext_16` of a 12-bit address immediate (30_encoding.md R74). -/
def zextAddr (nnn : BitVec 12) : Word := nnn.setWidth 16

end Sys2Proof
end

