-- ==== Sys2Proof/Machine/Inputs.lean ====
section
/-! DEFINITION. The inputs of a tick as plain data (46_sequencer_and_ports.md R282). -/

namespace Sys2Proof.Machine

/-- The kind of a key event (46 R282); its 1-bit code is `KeyEventKind.code` in Ports.lean. -/
inductive KeyEventKind where
  | press
  | release
deriving DecidableEq, Repr, Inhabited

/-- A key event: a press or release of one logical key, a 4-bit code (46 R282, R286). -/
structure KeyEvent where
  kind : KeyEventKind
  key : Reg
deriving DecidableEq, Repr, Inhabited

/-- The inputs of one tick (46 R282): the key events in delivery order, the quit signal, the random byte. -/
structure TickInput where
  events : List KeyEvent
  quit : Bool
  rnd : Byte
deriving DecidableEq, Repr, Inhabited

end Sys2Proof.Machine
end

