-- ==== Sys2Proof/Config.lean ====
section
/-! DEFINITION. The parameters of the block (00_scope.md R6) and the model's free value. -/

namespace Sys2Proof.Config

/-- `MEM_SIZE` (00_scope.md R6; 20_memory.md R50). -/
@[simp] abbrev memSize : Nat := 4096

/-- `PROG_BASE`, where the ROM is loaded and execution starts (00_scope.md R6). -/
@[simp] abbrev progBase : Nat := 512

/-- `PROG_MAX`, the largest ROM (00_scope.md R6). -/
@[simp] abbrev progMax : Nat := 3584

/-- `STACK_DEPTH` (00_scope.md R6). -/
@[simp] abbrev stackDepth : Nat := 16

/-- `FB_WIDTH` (00_scope.md R6). -/
@[simp] abbrev fbWidth : Nat := 64

/-- `FB_WIDTH * FB_HEIGHT`, the number of cells (00_scope.md R6). -/
@[simp] abbrev fbCells : Nat := 2048

/-- `NKEYS` (00_scope.md R6). -/
@[simp] abbrev nKeys : Nat := 16

/-- The glyphs 0 to 7 of the default `FONT` (10_state.md R41). PRESUMED: the spec marks its bytes as from general
knowledge (decision D2; log 4). -/
def fontLow : List Byte :=
  [0xF0, 0x90, 0x90, 0x90, 0xF0] ++ [0x20, 0x60, 0x20, 0x20, 0x70] ++
  [0xF0, 0x10, 0xF0, 0x80, 0xF0] ++ [0xF0, 0x10, 0xF0, 0x10, 0xF0] ++
  [0x90, 0x90, 0xF0, 0x10, 0x10] ++ [0xF0, 0x80, 0xF0, 0x10, 0xF0] ++
  [0xF0, 0x80, 0xF0, 0x90, 0xF0] ++ [0xF0, 0x10, 0x20, 0x40, 0x40]

/-- The glyphs 8 to F of the default `FONT` (10_state.md R41; log 4). -/
def fontHigh : List Byte :=
  [0xF0, 0x90, 0xF0, 0x90, 0xF0] ++ [0xF0, 0x90, 0xF0, 0x10, 0xF0] ++
  [0xF0, 0x90, 0xF0, 0x90, 0x90] ++ [0xE0, 0x90, 0xE0, 0x90, 0xE0] ++
  [0xF0, 0x80, 0x80, 0x80, 0xF0] ++ [0xE0, 0x90, 0x90, 0x90, 0xE0] ++
  [0xF0, 0x80, 0xF0, 0x80, 0xF0] ++ [0xF0, 0x80, 0xF0, 0x80, 0x80]

/-- The default value of the parameter `FONT`: 16 glyphs of 5 bytes (00_scope.md R6, 10_state.md R41; log 4). -/
def font : Vector Byte 80 := ⟨(fontLow ++ fontHigh).toArray, rfl⟩

/-- The free tick inputs: what the host gives a tick for which the schedule holds no entry. The host is at liberty to
give any events, `quit` at any tick, and any `rnd` (46 R282, R283, R286), so this has no body and no proof can know a
value of it (log 1, log 2). -/
opaque freeInput : Nat → Machine.TickInput

/-- `TICK_HZ`, the OPEN tick rate (46 R281). No rule of the spec and no definition of the model reads it (log 31). -/
opaque tickHz : Nat

end Sys2Proof.Config
end

