-- ==== Sys2Proof/Syntax.lean ====
section
/-! DEFINITION. The instructions as terms: one constructor per row of 30_encoding.md R80, in its order. A field holds
exactly the values its bits can hold (R72), so a term is an instruction with its operands and nothing else. -/

namespace Sys2Proof

/-- One row of the opcode table each (30_encoding.md R80). -/
inductive Instr where
  /-- `CLS` 00E0: clear the Display Buffer (41_display.md R103). -/
  | cls
  /-- `RET` 00EE: return from a subroutine (42_control_flow.md R134). -/
  | ret
  /-- `JP` 1nnn: jump (42_control_flow.md R136). -/
  | jp (nnn : BitVec 12)
  /-- `CALL` 2nnn: call a subroutine (42_control_flow.md R135). -/
  | call (nnn : BitVec 12)
  /-- `SE_IMM` 3xkk: skip if Vx = kk (42_control_flow.md R137). -/
  | seImm (x : Reg) (kk : Byte)
  /-- `SNE_IMM` 4xkk: skip if Vx differs from kk (42_control_flow.md R138). -/
  | sneImm (x : Reg) (kk : Byte)
  /-- `SE_REG` 5xy0: skip if Vx = Vy (42_control_flow.md R139). -/
  | seReg (x : Reg) (y : Reg)
  /-- `SNE_REG` 9xy0: skip if Vx differs from Vy (42_control_flow.md R140). -/
  | sneReg (x : Reg) (y : Reg)
  /-- `LD_IMM` 6xkk: load an immediate (43_register_alu.md R170). -/
  | ldImm (x : Reg) (kk : Byte)
  /-- `ADD_IMM` 7xkk: add an immediate, no carry (43_register_alu.md R171). -/
  | addImm (x : Reg) (kk : Byte)
  /-- `LD_REG` 8xy0: copy a register (43_register_alu.md R172). -/
  | ldReg (x : Reg) (y : Reg)
  /-- `OR` 8xy1: bitwise OR (43_register_alu.md R173). -/
  | orReg (x : Reg) (y : Reg)
  /-- `AND` 8xy2: bitwise AND (43_register_alu.md R174). -/
  | andReg (x : Reg) (y : Reg)
  /-- `XOR` 8xy3: bitwise exclusive OR (43_register_alu.md R175). -/
  | xorReg (x : Reg) (y : Reg)
  /-- `ADD_REG` 8xy4: add, carry into VF (43_register_alu.md R176). -/
  | addReg (x : Reg) (y : Reg)
  /-- `SUB` 8xy5: Vx - Vy, no-borrow into VF (43_register_alu.md R177). -/
  | sub (x : Reg) (y : Reg)
  /-- `SHR` 8xy6: shift Vx right by one; y is encoded and ignored (43_register_alu.md R178). -/
  | shr (x : Reg) (y : Reg)
  /-- `SUBN` 8xy7: Vy - Vx, no-borrow into VF (43_register_alu.md R179). -/
  | subn (x : Reg) (y : Reg)
  /-- `SHL` 8xyE: shift Vx left by one; y is encoded and ignored (43_register_alu.md R180). -/
  | shl (x : Reg) (y : Reg)
  /-- `LD_I` Annn: set the index register (44_index_memory.md R210). -/
  | ldI (nnn : BitVec 12)
  /-- `JP_V0` Bnnn: jump to V0 + nnn (42_control_flow.md R141). -/
  | jpV0 (nnn : BitVec 12)
  /-- `RND` Cxkk: random byte AND kk (43_register_alu.md R181). -/
  | rnd (x : Reg) (kk : Byte)
  /-- `DRW` Dxyn: draw an n-row sprite (41_display.md R104). -/
  | drw (x : Reg) (y : Reg) (n : BitVec 4)
  /-- `SKP` Ex9E: skip if key Vx is pressed (45_keys_timers.md R240). -/
  | skp (x : Reg)
  /-- `SKNP` ExA1: skip if key Vx is not pressed (45_keys_timers.md R241). -/
  | sknp (x : Reg)
  /-- `LD_VX_DT` Fx07: read the delay timer (45_keys_timers.md R242). -/
  | ldVxDt (x : Reg)
  /-- `LD_DT_VX` Fx15: set the delay timer (45_keys_timers.md R243). -/
  | ldDtVx (x : Reg)
  /-- `LD_ST_VX` Fx18: set the sound timer (45_keys_timers.md R244). -/
  | ldStVx (x : Reg)
  /-- `LD_VX_K` Fx0A: wait for a key press (45_keys_timers.md R245). -/
  | ldVxK (x : Reg)
  /-- `ADD_I` Fx1E: add Vx to the index register (44_index_memory.md R211). -/
  | addI (x : Reg)
  /-- `LD_F` Fx29: point I at the glyph for Vx (44_index_memory.md R212). -/
  | ldF (x : Reg)
  /-- `LD_B` Fx33: store the three decimal digits of Vx (44_index_memory.md R213). -/
  | ldB (x : Reg)
  /-- `ST_REGS` Fx55: store V0..Vx at I (44_index_memory.md R214). -/
  | stRegs (x : Reg)
  /-- `LD_REGS` Fx65: load V0..Vx from I (44_index_memory.md R215). -/
  | ldRegs (x : Reg)
deriving DecidableEq, Repr

/-- The instruction's row number in 30_encoding.md R80 (its column #). -/
def Instr.row : Instr → Nat
  | .cls => 1
  | .ret => 2
  | .jp _ => 3
  | .call _ => 4
  | .seImm _ _ => 5
  | .sneImm _ _ => 6
  | .seReg _ _ => 7
  | .sneReg _ _ => 8
  | .ldImm _ _ => 9
  | .addImm _ _ => 10
  | .ldReg _ _ => 11
  | .orReg _ _ => 12
  | .andReg _ _ => 13
  | .xorReg _ _ => 14
  | .addReg _ _ => 15
  | .sub _ _ => 16
  | .shr _ _ => 17
  | .subn _ _ => 18
  | .shl _ _ => 19
  | .ldI _ => 20
  | .jpV0 _ => 21
  | .rnd _ _ => 22
  | .drw _ _ _ => 23
  | .skp _ => 24
  | .sknp _ => 25
  | .ldVxDt _ => 26
  | .ldDtVx _ => 27
  | .ldStVx _ => 28
  | .ldVxK _ => 29
  | .addI _ => 30
  | .ldF _ => 31
  | .ldB _ => 32
  | .stRegs _ => 33
  | .ldRegs _ => 34

end Sys2Proof
end

