-- ==== Sys2Proof/WellFormed.lean ====
section
/-! DEFINITION. What a well-formed operand field, instruction, and ROM are. The types of `Instr` already bound every
field and no register field is illegal (30_encoding.md R75), so every instruction is well formed; a field list written
by hand and a ROM can be ill formed, and the checks refuse those. -/

namespace Sys2Proof

/-- An operand field of an opcode: the bits `hi` down to `lo`, and the value they hold (30_encoding.md R72). -/
structure OpField where
  hi : Nat
  lo : Nat
  value : Nat
deriving DecidableEq, Repr

/-- The field lies inside the 16-bit word. -/
def OpField.inWord (f : OpField) : Bool := decide (f.lo ≤ f.hi) && decide (f.hi < 16)

/-- The value fits the field's bits. -/
def OpField.fits (f : OpField) : Bool := decide (f.value < 2 ^ (f.hi - f.lo + 1))

def OpField.wellFormed (f : OpField) : Bool := f.inWord && f.fits

/-- A register number field `x`, bits 11 to 8. -/
def OpField.x (r : Reg) : OpField := ⟨11, 8, r.toNat⟩

/-- A register number field `y`, bits 7 to 4. -/
def OpField.y (r : Reg) : OpField := ⟨7, 4, r.toNat⟩

/-- The sprite height field `n`, bits 3 to 0. -/
def OpField.n (n : BitVec 4) : OpField := ⟨3, 0, n.toNat⟩

/-- The byte immediate field `kk`, bits 7 to 0. -/
def OpField.kk (k : Byte) : OpField := ⟨7, 0, k.toNat⟩

/-- The address immediate field `nnn`, bits 11 to 0. -/
def OpField.nnn (a : BitVec 12) : OpField := ⟨11, 0, a.toNat⟩

/-- The operand fields of an instruction, by the formats of 30_encoding.md R73. -/
def Instr.fields : Instr → List OpField
  | .cls => []
  | .ret => []
  | .jp nnn => [.nnn nnn]
  | .call nnn => [.nnn nnn]
  | .seImm x kk => [.x x, .kk kk]
  | .sneImm x kk => [.x x, .kk kk]
  | .seReg x y => [.x x, .y y]
  | .sneReg x y => [.x x, .y y]
  | .ldImm x kk => [.x x, .kk kk]
  | .addImm x kk => [.x x, .kk kk]
  | .ldReg x y => [.x x, .y y]
  | .orReg x y => [.x x, .y y]
  | .andReg x y => [.x x, .y y]
  | .xorReg x y => [.x x, .y y]
  | .addReg x y => [.x x, .y y]
  | .sub x y => [.x x, .y y]
  | .shr x y => [.x x, .y y]
  | .subn x y => [.x x, .y y]
  | .shl x y => [.x x, .y y]
  | .ldI nnn => [.nnn nnn]
  | .jpV0 nnn => [.nnn nnn]
  | .rnd x kk => [.x x, .kk kk]
  | .drw x y n => [.x x, .y y, .n n]
  | .skp x => [.x x]
  | .sknp x => [.x x]
  | .ldVxDt x => [.x x]
  | .ldDtVx x => [.x x]
  | .ldStVx x => [.x x]
  | .ldVxK x => [.x x]
  | .addI x => [.x x]
  | .ldF x => [.x x]
  | .ldB x => [.x x]
  | .stRegs x => [.x x]
  | .ldRegs x => [.x x]

/-- Every operand fits its field. -/
def Instr.wellFormed (i : Instr) : Bool := i.fields.all OpField.wellFormed

/-- A ROM the load accepts: at most `PROG_MAX` bytes (46 R285, 70 R331). -/
def romWellFormed (rom : List Byte) : Bool := decide (rom.length ≤ Config.progMax)

end Sys2Proof
end

