-- ==== Sys2Proof/Decode.lean ====
section
/-! DEFINITION. The decoder (30_encoding.md R70 to R78), total on any word and any bytes, rejecting by name; after it
the encoder, written from the same layouts (R73), and the opcode table of R80. -/

namespace Sys2Proof

/-- Why bytes are no instruction. -/
inductive Reject where
  /-- The word matches no row of 30_encoding.md R80: a decode error, which the core reports and skips (60 R301). -/
  | decodeError (op : Word)
  /-- Fewer than the two bytes of an opcode (30_encoding.md R70). -/
  | truncated
deriving DecidableEq, Repr

/-- `op[15:12]`, the high nibble (30_encoding.md R71). -/
def opHigh (op : Word) : BitVec 4 := op.extractLsb' 12 4

/-- `x = op[11:8]` (30_encoding.md R72). -/
def opX (op : Word) : Reg := op.extractLsb' 8 4

/-- `y = op[7:4]` (30_encoding.md R72). -/
def opY (op : Word) : Reg := op.extractLsb' 4 4

/-- `n = op[3:0]` (30_encoding.md R72). -/
def opN (op : Word) : BitVec 4 := op.extractLsb' 0 4

/-- `kk = op[7:0]` (30_encoding.md R72). -/
def opKK (op : Word) : Byte := op.extractLsb' 0 8

/-- `nnn = op[11:0]` (30_encoding.md R72). -/
def opNNN (op : Word) : BitVec 12 := op.extractLsb' 0 12

/-- Family 0: only `00E0` and `00EE` (30_encoding.md R76). -/
def decode0 (op : Word) : Option Instr :=
  match (opNNN op).toNat with
  | 0x0E0 => some .cls
  | 0x0EE => some .ret
  | _ => none

/-- Families 5 and 9: the low nibble is checked (30_encoding.md R76, R77; decision D33, log 27). -/
def decodeXY0 (mk : Reg → Reg → Instr) (op : Word) : Option Instr :=
  match (opN op).toNat with
  | 0x0 => some (mk (opX op) (opY op))
  | _ => none

/-- Family 8, selected by the low nibble (30_encoding.md R76). -/
def decode8 (op : Word) : Option Instr :=
  match (opN op).toNat with
  | 0x0 => some (.ldReg (opX op) (opY op))
  | 0x1 => some (.orReg (opX op) (opY op))
  | 0x2 => some (.andReg (opX op) (opY op))
  | 0x3 => some (.xorReg (opX op) (opY op))
  | 0x4 => some (.addReg (opX op) (opY op))
  | 0x5 => some (.sub (opX op) (opY op))
  | 0x6 => some (.shr (opX op) (opY op))
  | 0x7 => some (.subn (opX op) (opY op))
  | 0xE => some (.shl (opX op) (opY op))
  | _ => none

/-- Family E, selected by the low byte (30_encoding.md R76). -/
def decodeE (op : Word) : Option Instr :=
  match (opKK op).toNat with
  | 0x9E => some (.skp (opX op))
  | 0xA1 => some (.sknp (opX op))
  | _ => none

/-- Family F, selected by the low byte (30_encoding.md R76). -/
def decodeF (op : Word) : Option Instr :=
  match (opKK op).toNat with
  | 0x07 => some (.ldVxDt (opX op))
  | 0x0A => some (.ldVxK (opX op))
  | 0x15 => some (.ldDtVx (opX op))
  | 0x18 => some (.ldStVx (opX op))
  | 0x1E => some (.addI (opX op))
  | 0x29 => some (.ldF (opX op))
  | 0x33 => some (.ldB (opX op))
  | 0x55 => some (.stRegs (opX op))
  | 0x65 => some (.ldRegs (opX op))
  | _ => none

/-- The opcode map by high nibble (30_encoding.md R71, R76). -/
def decodeRow (op : Word) : Option Instr :=
  match (opHigh op).toNat with
  | 0x0 => decode0 op
  | 0x1 => some (.jp (opNNN op))
  | 0x2 => some (.call (opNNN op))
  | 0x3 => some (.seImm (opX op) (opKK op))
  | 0x4 => some (.sneImm (opX op) (opKK op))
  | 0x5 => decodeXY0 .seReg op
  | 0x6 => some (.ldImm (opX op) (opKK op))
  | 0x7 => some (.addImm (opX op) (opKK op))
  | 0x8 => decode8 op
  | 0x9 => decodeXY0 .sneReg op
  | 0xA => some (.ldI (opNNN op))
  | 0xB => some (.jpV0 (opNNN op))
  | 0xC => some (.rnd (opX op) (opKK op))
  | 0xD => some (.drw (opX op) (opY op) (opN op))
  | 0xE => decodeE op
  | _ => decodeF op

/-- Decode one opcode; a word of the decode-error space is rejected by name (30_encoding.md R78). -/
def decode (op : Word) : Except Reject Instr :=
  match decodeRow op with
  | some i => .ok i
  | none => .error (.decodeError op)

/-- The opcode of two bytes, the byte at the lower address first: big-endian (20_memory.md R56, R57; decision D1,
log 8). -/
def opcodeOf (first second : Byte) : Word := first ++ second

/-- Decode from a list of bytes, with the bytes that are left. Every instruction takes two (30_encoding.md R70). -/
def decodeBytes : List Byte → Except Reject (Instr × List Byte)
  | first :: second :: rest =>
    match decode (opcodeOf first second) with
    | .ok i => .ok (i, rest)
    | .error r => .error r
  | _ => .error .truncated

/-- The instruction the decoder reads from a word numbered as spec/opcode_table.json numbers it (bit 0 the least
significant of the one 16-bit word; bits above `nbits` are 0): its two bytes, high byte at the lower address. -/
def decodeTableWord (nbits w : Nat) : Option Instr :=
  let op := w % 2 ^ nbits
  match decodeBytes [BitVec.ofNat 8 (op / 256), BitVec.ofNat 8 op] with
  | .ok (i, _) => some i
  | .error _ => none

/-- The opcode of an instruction, by the layouts of 30_encoding.md R73 and the fixed digits of R80. -/
def encode : Instr → Word
  | .cls => 0x00E0#16
  | .ret => 0x00EE#16
  | .jp nnn => 0x1#4 ++ nnn
  | .call nnn => 0x2#4 ++ nnn
  | .seImm x kk => 0x3#4 ++ x ++ kk
  | .sneImm x kk => 0x4#4 ++ x ++ kk
  | .seReg x y => 0x5#4 ++ x ++ y ++ 0x0#4
  | .sneReg x y => 0x9#4 ++ x ++ y ++ 0x0#4
  | .ldImm x kk => 0x6#4 ++ x ++ kk
  | .addImm x kk => 0x7#4 ++ x ++ kk
  | .ldReg x y => 0x8#4 ++ x ++ y ++ 0x0#4
  | .orReg x y => 0x8#4 ++ x ++ y ++ 0x1#4
  | .andReg x y => 0x8#4 ++ x ++ y ++ 0x2#4
  | .xorReg x y => 0x8#4 ++ x ++ y ++ 0x3#4
  | .addReg x y => 0x8#4 ++ x ++ y ++ 0x4#4
  | .sub x y => 0x8#4 ++ x ++ y ++ 0x5#4
  | .shr x y => 0x8#4 ++ x ++ y ++ 0x6#4
  | .subn x y => 0x8#4 ++ x ++ y ++ 0x7#4
  | .shl x y => 0x8#4 ++ x ++ y ++ 0xE#4
  | .ldI nnn => 0xA#4 ++ nnn
  | .jpV0 nnn => 0xB#4 ++ nnn
  | .rnd x kk => 0xC#4 ++ x ++ kk
  | .drw x y n => 0xD#4 ++ x ++ y ++ n
  | .skp x => 0xE#4 ++ x ++ 0x9E#8
  | .sknp x => 0xE#4 ++ x ++ 0xA1#8
  | .ldVxDt x => 0xF#4 ++ x ++ 0x07#8
  | .ldDtVx x => 0xF#4 ++ x ++ 0x15#8
  | .ldStVx x => 0xF#4 ++ x ++ 0x18#8
  | .ldVxK x => 0xF#4 ++ x ++ 0x0A#8
  | .addI x => 0xF#4 ++ x ++ 0x1E#8
  | .ldF x => 0xF#4 ++ x ++ 0x29#8
  | .ldB x => 0xF#4 ++ x ++ 0x33#8
  | .stRegs x => 0xF#4 ++ x ++ 0x55#8
  | .ldRegs x => 0xF#4 ++ x ++ 0x65#8

/-- A row of the opcode table: its number, mnemonic id, mask and match (30_encoding.md R80). -/
structure OpRow where
  number : Nat
  mnemonic : String
  mask : Word
  value : Word
deriving DecidableEq, Repr

/-- `op` matches a row when `(op and mask) == match` (30_encoding.md R77). -/
def OpRow.matchesWord (r : OpRow) (op : Word) : Bool := op &&& r.mask == r.value

/-- Rows 1 to 17 of 30_encoding.md R80. -/
def opcodeTableA : List OpRow :=
  [⟨1, "CLS", 0xFFFF, 0x00E0⟩,
   ⟨2, "RET", 0xFFFF, 0x00EE⟩,
   ⟨3, "JP", 0xF000, 0x1000⟩,
   ⟨4, "CALL", 0xF000, 0x2000⟩,
   ⟨5, "SE_IMM", 0xF000, 0x3000⟩,
   ⟨6, "SNE_IMM", 0xF000, 0x4000⟩,
   ⟨7, "SE_REG", 0xF00F, 0x5000⟩,
   ⟨8, "SNE_REG", 0xF00F, 0x9000⟩,
   ⟨9, "LD_IMM", 0xF000, 0x6000⟩,
   ⟨10, "ADD_IMM", 0xF000, 0x7000⟩,
   ⟨11, "LD_REG", 0xF00F, 0x8000⟩,
   ⟨12, "OR", 0xF00F, 0x8001⟩,
   ⟨13, "AND", 0xF00F, 0x8002⟩,
   ⟨14, "XOR", 0xF00F, 0x8003⟩,
   ⟨15, "ADD_REG", 0xF00F, 0x8004⟩,
   ⟨16, "SUB", 0xF00F, 0x8005⟩,
   ⟨17, "SHR", 0xF00F, 0x8006⟩]

/-- Rows 18 to 34 of 30_encoding.md R80. -/
def opcodeTableB : List OpRow :=
  [⟨18, "SUBN", 0xF00F, 0x8007⟩,
   ⟨19, "SHL", 0xF00F, 0x800E⟩,
   ⟨20, "LD_I", 0xF000, 0xA000⟩,
   ⟨21, "JP_V0", 0xF000, 0xB000⟩,
   ⟨22, "RND", 0xF000, 0xC000⟩,
   ⟨23, "DRW", 0xF000, 0xD000⟩,
   ⟨24, "SKP", 0xF0FF, 0xE09E⟩,
   ⟨25, "SKNP", 0xF0FF, 0xE0A1⟩,
   ⟨26, "LD_VX_DT", 0xF0FF, 0xF007⟩,
   ⟨27, "LD_DT_VX", 0xF0FF, 0xF015⟩,
   ⟨28, "LD_ST_VX", 0xF0FF, 0xF018⟩,
   ⟨29, "LD_VX_K", 0xF0FF, 0xF00A⟩,
   ⟨30, "ADD_I", 0xF0FF, 0xF01E⟩,
   ⟨31, "LD_F", 0xF0FF, 0xF029⟩,
   ⟨32, "LD_B", 0xF0FF, 0xF033⟩,
   ⟨33, "ST_REGS", 0xF0FF, 0xF055⟩,
   ⟨34, "LD_REGS", 0xF0FF, 0xF065⟩]

/-- The complete opcode table (30_encoding.md R80). The decoder does not read it: that the two agree is stated. -/
def opcodeTable : List OpRow := opcodeTableA ++ opcodeTableB

end Sys2Proof
end

