-- ==== Sys2Proof/Machine/Flags.lean ====
section
/-! DEFINITION. The flag computations: what 8xy4 to 8xyE and Dxyn write to VF (10_state.md R22, 43_register_alu.md
R182). -/

namespace Sys2Proof.Machine

/-- A flag as the value VF receives: 1 or 0. -/
def flagByte (c : Bool) : Byte := if c then 1 else 0

/-- Carry of `a + b`: the sum exceeds 255 (43_register_alu.md R176, R182). -/
def carryFlag (a b : Byte) : Bool := decide (a.toNat + b.toNat > 255)

/-- No borrow of `a - b`: `a >= b` (43_register_alu.md R177, R182; decision D8, log 10). -/
def noBorrowFlag (a b : Byte) : Bool := decide (a.toNat ≥ b.toNat)

/-- The bit a shift right by one drops: bit 0 (43_register_alu.md R178). -/
def shiftRightFlag (a : Byte) : Bool := a.getLsbD 0

/-- The bit a shift left by one drops: bit 7 (43_register_alu.md R180). -/
def shiftLeftFlag (a : Byte) : Bool := a.getLsbD 7

end Sys2Proof.Machine
end

