-- ==== Sys2Proof/Machine/Memory.lean ====
section
/-! DEFINITION. Memory (20_memory.md): a list of the bytes that differ from the reset contents, addresses strictly
rising. Every wider access is built from the one-byte read and write here. -/

namespace Sys2Proof.Machine

/-- Memory as its changed bytes (20_memory.md R50): an address not listed reads as `Memory.resetByte`. -/
abbrev Memory := List Host.Cell

/-- What an unlisted address reads as: the contents after the load of an empty ROM with the default font, `FONT` at
`0x000`-`0x04F` and zero everywhere else (10_state.md R40, R41; 20_memory.md R51; log 4). -/
def Memory.resetByte (a : Nat) : Byte := Config.font.toList.getD a 0

/-- The byte at an address (the read of 20_memory.md R52, after its range check). -/
def Memory.read : Memory → Nat → Byte
  | [], a => Memory.resetByte a
  | (b, u) :: m, a => if a = b then u else Memory.read m a

/-- Drop the entry of an address, so that it reads as at reset. -/
def Memory.erase (m : Memory) (a : Nat) : Memory := m.filter fun c => c.1 != a

/-- Put an entry before the first one of a higher address. -/
def Memory.insert (a : Nat) (v : Byte) : Memory → Memory
  | [] => [(a, v)]
  | (b, u) :: m => if a < b then (a, v) :: (b, u) :: m else (b, u) :: Memory.insert a v m

/-- Write one byte (the write of 20_memory.md R53, after its range check); the canonical form is kept. -/
def Memory.write (m : Memory) (a : Nat) (v : Byte) : Memory :=
  if v = Memory.resetByte a then m.erase a else Memory.insert a v (m.erase a)

/-- Write bytes at increasing addresses, the first at `a` (20_memory.md R57). -/
def Memory.writeBytes (m : Memory) (a : Nat) : List Byte → Memory
  | [] => m
  | v :: vs => Memory.writeBytes (m.write a v) (a + 1) vs

/-- Read `n` bytes at increasing addresses, the first at `a` (20_memory.md R57). -/
def Memory.readBytes (m : Memory) (a : Nat) : Nat → List Byte
  | 0 => []
  | n + 1 => m.read a :: Memory.readBytes m (a + 1) n

/-- Every listed address is above `lo`, rising, inside the address space, and differs from the reset contents. -/
def Memory.wfAbove (lo : Nat) : Memory → Bool
  | [] => true
  | (a, v) :: m => decide (lo ≤ a) && decide (a < Config.memSize) && decide (v ≠ Memory.resetByte a) && Memory.wfAbove (a + 1) m

/-- The canonical form, in which equal memories are equal lists. -/
def Memory.wf (m : Memory) : Bool := m.wfAbove 0

end Sys2Proof.Machine
end

