-- ==== Sys2Proof/Machine/State.lean ====
section
/-! DEFINITION. The state of the core as plain data: all of 10_state.md R20, the outputs of a tick
(46_sequencer_and_ports.md R284), and the tick inputs still to come (R282). -/

namespace Sys2Proof.Machine

/-- The causes of a fault (60_exceptions.md R302). A fault is ENTERED: the meaning answers a next state in FAULTED
with the record of R303, so no step answers `Outcome.fault` (log 7). Safe: the core halts where the original program
has undefined behaviour. -/
inductive Fault where
  /-- Raised by 2nnn when the stack holds 16 entries (60_exceptions.md R302). Safe. -/
  | stackOverflow
  /-- Raised by 00EE when the stack is empty (60_exceptions.md R302). Safe. -/
  | stackUnderflow
  /-- Raised by Dxyn, Fx33, Fx55 and Fx65 for an address of 4096 or more (60_exceptions.md R302). Safe. -/
  | memRange
  /-- Raised by the fetch for `pc < 0x200` or `pc + 1 >= 4096` (60_exceptions.md R302). Safe. -/
  | fetchRange
  /-- Raised by Ex9E and ExA1 for `V[x] > 15` (60_exceptions.md R302). Safe. -/
  | keyRange
deriving DecidableEq, Repr

/-- Why an instruction has no meaning. -/
inductive Refusal where
  /-- Raised by no arm: every instruction of the table has its meaning. Safe. -/
  | notModelled (mnemonic : String)
deriving DecidableEq, Repr

/-- The state of the Run Loop (10_state.md R32). -/
inductive RunState where
  | running
  | blockedOnKey
  | terminated
  | faulted
deriving DecidableEq, Repr

/-- The Display Buffer, one bit a cell, bit `x + 64*y` the cell at column `x` and row `y` (10_state.md R30). -/
abbrev Screen := BitVec 2048

/-- The machine's state. -/
structure State where
  /-- `V[0]`..`V[15]` (10_state.md R21). -/
  regs : Vector Byte 16
  /-- `I` (10_state.md R24). -/
  index : Word
  /-- `pc` (10_state.md R25). -/
  pc : Word
  /-- `stack[0]`..`stack[15]` (10_state.md R26). -/
  stack : Vector Word 16
  /-- `SP`, 0 to 16 (10_state.md R27; log 23). -/
  sp : Fin 17
  /-- `DT` (10_state.md R28). -/
  dt : Byte
  /-- `ST` (10_state.md R28). -/
  st : Byte
  /-- `key[0]`..`key[15]` (10_state.md R29). -/
  keys : Vector Bool 16
  /-- `fb[0]`..`fb[2047]` (10_state.md R30). -/
  fb : Screen
  /-- `mem[0]`..`mem[4095]` (10_state.md R31). -/
  mem : Memory
  /-- `run_state` (10_state.md R32). -/
  runState : RunState
  /-- `wait_x` (10_state.md R33). -/
  waitX : Reg
  /-- `fault_cause`, `none` for NONE (10_state.md R34). -/
  faultCause : Option Fault
  /-- `fault_pc` (10_state.md R34). -/
  faultPc : Word
  /-- `fault_op` (10_state.md R34). -/
  faultOp : Word
  /-- `prog_end` (10_state.md R35). -/
  progEnd : Word
  /-- The model's own: the tick inputs that are fixed beforehand, the next tick's first; after them a tick's inputs are
  free (46 R282, R286; log 1). -/
  inputs : List TickInput
  /-- The model's own: `rnd` of the tick in progress (46 R283; log 2). -/
  rnd : Byte
  /-- The model's own: a counter every tick advances, which picks a tick's entry of `Config.freeInput` (log 1). -/
  draws : Nat
  /-- Output `present` of the last tick (46 R280, R284). -/
  present : Bool
  /-- Output `decode_error` of the last tick (60_exceptions.md R301, 46 R284). -/
  decodeError : Bool
  /-- Output `de_pc`, stale when `decode_error = 0` (46 R284). -/
  dePc : Word
  /-- Output `de_op`, stale when `decode_error = 0` (46 R284). -/
  deOp : Word
deriving DecidableEq, Repr

/-- What an instruction and a step answer. -/
abbrev Result := Host.Outcome State Fault Refusal

/-- The machine after a load of the empty ROM (10_state.md R40, 70_reset_and_hazards.md R330, R334): PROG_SIZE is 0,
memory lists nothing, and every register holds the value of R40 (log 5, log 6; the outputs and the model's own
fields by log 1 to 3). -/
def State.reset : State where
  regs := Vector.replicate 16 0
  index := 0
  pc := 0x200
  stack := Vector.replicate 16 0
  sp := 0
  dt := 0
  st := 0
  keys := Vector.replicate 16 false
  fb := 0
  mem := []
  runState := .running
  waitX := 0
  faultCause := none
  faultPc := 0
  faultOp := 0
  progEnd := 0x200
  inputs := []
  rnd := 0
  draws := 0
  present := false
  decodeError := false
  dePc := 0
  deOp := 0

end Sys2Proof.Machine
end

