-- ==== Sys2Proof/Machine/Operands.lean ====
section
/-! DEFINITION. The operand forms (30_encoding.md R72 to R75): a register read, the block V0..Vx, the immediates, and
the addresses formed from `I`. -/

namespace Sys2Proof.Machine

/-- `V[x]` (10_state.md R21). -/
def State.reg (s : State) (x : Reg) : Byte := s.regs[x.toNat]'x.isLt

/-- `V[0]`, the fixed operand of Bnnn (42_control_flow.md R141). -/
def State.regZero (s : State) : Byte := s.reg 0

/-- `V[0]`..`V[x]` in order (44_index_memory.md R214). -/
def State.regBlock (s : State) (x : Reg) : List Byte := s.regs.toList.take (x.toNat + 1)

/-- The address immediate as a program counter or index value (30_encoding.md R74). -/
def addrOperand (nnn : BitVec 12) : Word := zextAddr nnn

/-- The first address of an access through `I`: a natural number, never wrapped (20_memory.md R52, R55). -/
def State.indexAddr (s : State) : Nat := s.index.toNat

/-- Do `count` bytes from address `a` all exist (20_memory.md R55)? No byte: nothing to check (41_display.md R104). -/
def accessOk (a count : Nat) : Bool := decide (count = 0) || decide (a + count ≤ Config.memSize)

/-- The bytes Fx55 and Fx65 move: `x + 1` (20_memory.md R54). -/
def blockSize (x : Reg) : Nat := x.toNat + 1

/-- `key[k]` for a key code (10_state.md R29). -/
def State.key (s : State) (k : Reg) : Bool := s.keys[k.toNat]'k.isLt

/-- The key code a register value names, none for a value above 15 (45_keys_timers.md R240). -/
def keyOperand (v : Byte) : Option Reg := if v.toNat < Config.nKeys then some (v.setWidth 4) else none

/-- The font address of a value, `zext_16(v) * 5` (44_index_memory.md R212). -/
def fontAddr (v : Byte) : Word := zextByte v * 5

/-- The hundreds, tens and ones digits (44_index_memory.md R213). -/
def bcdDigits (v : Byte) : List Byte :=
  [BitVec.ofNat 8 (v.toNat / 100), BitVec.ofNat 8 (v.toNat / 10 % 10), BitVec.ofNat 8 (v.toNat % 10)]

end Sys2Proof.Machine
end

