-- ==== Sys2Proof/Machine/Raster.lean ====
section
/-! DEFINITION. The XOR-rasterizer with collision detection (41_display.md R101, R102, R104, R105). -/

namespace Sys2Proof.Machine

/-- The cell at a linear index (10_state.md R30). -/
def Screen.cell (fb : Screen) (j : Nat) : Bool := fb.getLsbD j

/-- Toggle one cell. -/
def Screen.toggle (fb : Screen) (j : Nat) : Screen := fb ^^^ BitVec.twoPow 2048 j

/-- The linear index of the pixel in sprite row `r`, column `c` (41_display.md R101): natural numbers, no modulo. The
literal reading of the source is decision D19 (log 21). -/
def pixelIndex (px0 py0 r c : Nat) : Nat := (px0 + c) + Config.fbWidth * (py0 + r)

/-- Sprite column `c` of a row byte: bit `7 - c`, so bit 7 is leftmost (41_display.md R102; decision D18, log 20). -/
def spriteBit (row : Byte) (c : Nat) : Bool := row.getLsbD (7 - c)

/-- The Display Buffer and the collision bit while a sprite is drawn. -/
structure Draw where
  fb : Screen
  collide : Bool
deriving DecidableEq, Repr

/-- Draw at one index: skipped outside the buffer, else the cell is toggled and a cell that was on collides
(41_display.md R101, R104). -/
def Draw.plot (d : Draw) (j : Nat) : Draw :=
  if j < Config.fbCells then { fb := d.fb.toggle j, collide := d.collide || d.fb.cell j } else d

/-- One pixel: a sprite bit of 0 leaves its cell unchanged (41_display.md R102). -/
def drawPixel (px0 py0 r : Nat) (row : Byte) (d : Draw) (c : Nat) : Draw :=
  if spriteBit row c then d.plot (pixelIndex px0 py0 r c) else d

/-- The eight pixels of sprite row `r`, left to right. -/
def drawRow (px0 py0 r : Nat) (row : Byte) (d : Draw) : Draw :=
  (List.range 8).foldl (drawPixel px0 py0 r row) d

/-- The rows of a sprite from row `r` on, top to bottom (the loop of 41_display.md R104). -/
def drawRows (px0 py0 : Nat) : Nat → List Byte → Draw → Draw
  | _, [], d => d
  | r, row :: rows, d => drawRows px0 py0 (r + 1) rows (drawRow px0 py0 r row d)

/-- A whole draw: the start coordinates are register values, not reduced (41_display.md R101); no collision yet. -/
def drawSprite (vx vy : Byte) (rows : List Byte) (fb : Screen) : Draw :=
  drawRows vx.toNat vy.toNat 0 rows { fb := fb, collide := false }

/-- The all-off Display Buffer (41_display.md R103). -/
def Screen.clear : Screen := 0

end Sys2Proof.Machine
end

