-- ==== Sys2Proof/Machine/Ops.lean ====
section
/-! DEFINITION. The named operations every meaning is written over: register and memory writes, the next pc, the call
stack, taking a fault, and the pieces of a tick. -/

namespace Sys2Proof.Machine

/-- `V[x] <- v` (00_scope.md R9). -/
def State.setReg (s : State) (x : Reg) (v : Byte) : State := { s with regs := s.regs.set x.toNat v x.isLt }

/-- `V[x] <- v`, then `VF <- flag`: the flag is written last (43_register_alu.md R183; decision D9, log 11). -/
def State.setRegFlag (s : State) (x : Reg) (v : Byte) (c : Bool) : State := (s.setReg x v).setReg vf (flagByte c)

/-- `V[0]..V[x] <- mem[I]..mem[I+x]` (44_index_memory.md R215). -/
def State.loadRegs (s : State) (x : Reg) : State :=
  { s with regs := s.regs.mapIdx fun j v => if j ≤ x.toNat then s.mem.read (s.indexAddr + j) else v }

/-- `I <- v` (10_state.md R24). -/
def State.setIndex (s : State) (v : Word) : State := { s with index := v }

/-- `DT <- v` (45_keys_timers.md R243). -/
def State.setDt (s : State) (v : Byte) : State := { s with dt := v }

/-- `ST <- v` (45_keys_timers.md R244). -/
def State.setSt (s : State) (v : Byte) : State := { s with st := v }

/-- Replace the Display Buffer (41_display.md R100). -/
def State.setFb (s : State) (v : Screen) : State := { s with fb := v }

/-- Write bytes from an address on, all checked before (20_memory.md R53, R55). -/
def State.store (s : State) (a : Nat) (bytes : List Byte) : State := { s with mem := s.mem.writeBytes a bytes }

/-- `pc <- target` (42_control_flow.md R133). -/
def State.setPc (s : State) (v : Word) : State := { s with pc := v }

/-- The PC-advance `pc <- trunc_16(pc + 2)` (42_control_flow.md R131). -/
def State.advance (s : State) : State := s.setPc (s.pc + 2)

/-- A skip: `pc + 4` if the condition holds, else `pc + 2` (42_control_flow.md R132). -/
def State.skipIf (s : State) (c : Bool) : State := s.setPc (if c then s.pc + 4 else s.pc + 2)

/-- `Push(v)` on a stack that is not full (10_state.md R27). -/
def State.push (s : State) (v : Word) (h : s.sp.val < 16) : State :=
  { s with stack := s.stack.set s.sp.val v h, sp := ⟨s.sp.val + 1, Nat.succ_lt_succ h⟩ }

/-- The entry a pop reads: `stack[SP - 1]` (10_state.md R27). -/
def State.stackTop (s : State) (h : 0 < s.sp.val) : Word :=
  s.stack[s.sp.val - 1]'(by have := s.sp.isLt; omega)

/-- `SP <- SP - 1` of a pop; the entry stays (10_state.md R27). -/
def State.popped (s : State) : State := { s with sp := ⟨s.sp.val - 1, Nat.lt_of_le_of_lt (Nat.sub_le _ _) s.sp.isLt⟩ }

/-- Fault entry (60_exceptions.md R303): the fault record is written and the core is FAULTED; `pc` and everything
else stay. There is no return from it (R306): FAULTED is final, and only a new load leaves it. -/
def State.takeFault (s : State) (cause : Fault) (op : Word) : State :=
  { s with faultCause := some cause, faultPc := s.pc, faultOp := op, runState := .faulted }

/-- The instruction is done. -/
def done (s : State) : Result := .next s

/-- `raise Fault(cause)` in an instruction: none of its writes take place (00_scope.md R10), and the record holds its
opcode (60_exceptions.md R303; log 30). -/
def raise (cause : Fault) (i : Instr) (s : State) : Result := .next (s.takeFault cause (encode i))

/-- Begin the wait of Fx0A: `wait_x <- x`, BLOCKED_ON_KEY, `pc` unchanged (45_keys_timers.md R245). -/
def State.beginWait (s : State) (x : Reg) : State := { s with waitX := x, runState := .blockedOnKey }

/-- End the wait with key code `k`: `V[wait_x] <- k`, past the Fx0A, RUNNING (45_keys_timers.md R246). -/
def State.endWait (s : State) (k : Reg) : State :=
  { (s.setReg s.waitX (k.setWidth 8)).advance with runState := .running }

/-- `run_state <- TERMINATED` (46 R275, R277). -/
def State.terminate (s : State) : State := { s with runState := .terminated }

/-- Report a decode error and continue at the next word (60_exceptions.md R301). -/
def State.reportDecodeError (s : State) (op : Word) : State :=
  { s with decodeError := true, dePc := s.pc, deOp := op, pc := s.pc + 2 }

/-- Request a frame (46 R280). -/
def State.requestFrame (s : State) : State := { s with present := true }

/-- `tick(T)`: one down, staying at 0 (46 R270). -/
def timerTick (t : Byte) : Byte := if t.toNat > 0 then t - 1 else t

/-- Both timers, each independently (46 R270). -/
def State.tickTimers (s : State) : State := { s with dt := timerTick s.dt, st := timerTick s.st }

/-- One key event applied to the key state (46 R276). -/
def applyEvent (keys : Vector Bool 16) (e : KeyEvent) : Vector Bool 16 :=
  keys.set e.key.toNat (e.kind == .press) e.key.isLt

/-- The input poll: the events in delivery order (46 R276). -/
def State.poll (s : State) (events : List KeyEvent) : State := { s with keys := events.foldl applyEvent s.keys }

/-- The key code of the first press event of a poll (45_keys_timers.md R247). -/
def firstPress : List KeyEvent → Option Reg
  | [] => none
  | e :: es => if e.kind = .press then some e.key else firstPress es

/-- The inputs of the next tick: the first of the schedule; after its end any events, quit and random byte, as the host
is at liberty to give (46 R282, R283, R286; log 1, log 2). -/
def State.nextInput (s : State) : TickInput :=
  match s.inputs with
  | [] => Config.freeInput s.draws
  | inp :: _ => inp

/-- Sample the tick's inputs (46 R282) and lower the outputs that belong to one tick (46 R280, R284; log 28). -/
def State.sample (s : State) : State :=
  { s with
    inputs := s.inputs.tail
    rnd := s.nextInput.rnd
    draws := s.draws + 1
    present := false
    decodeError := false }

/-- `FetchOp(pc)`: none where it raises FETCH_RANGE (20_memory.md R56). -/
def State.fetch (s : State) : Option Word :=
  if Config.progBase ≤ s.pc.toNat ∧ s.pc.toNat + 1 < Config.memSize then
    some (opcodeOf (s.mem.read s.pc.toNat) (s.mem.read (s.pc.toNat + 1)))
  else none

end Sys2Proof.Machine
end

