-- ==== Sys2Proof/Machine/Load.lean ====
section
/-! DEFINITION. The load interface, the core's one reset (46 R285, 70_reset_and_hazards.md R330 to R332), and how one
instruction is placed where the next tick fetches it. -/

namespace Sys2Proof.Machine

/-- Memory after a load: `FONT` from address 0, the ROM from `PROG_BASE`, zero elsewhere (70 R330). -/
def loadMemory (font : Vector Byte 80) (rom : List Byte) : Memory :=
  (Memory.writeBytes [] 0 font.toList).writeBytes Config.progBase rom

/-- The load of a ROM with a font: none for a ROM of more than 3584 bytes, which starts no run (70 R330, R331). It
replaces every piece of state, so it takes no state (R332); the schedule of inputs starts empty, so every tick's inputs are free (log 1, log 29). -/
def State.load (font : Vector Byte 80) (rom : List Byte) : Option State :=
  if romWellFormed rom then
    some { State.reset with
      mem := loadMemory font rom
      progEnd := BitVec.ofNat 16 (Config.progBase + rom.length) }
  else none

/-- Where the next tick fetches: `pc` where a fetch is possible there, else `PROG_BASE`. -/
def State.fetchPlace (s : State) : Word :=
  if Config.progBase ≤ s.pc.toNat ∧ s.pc.toNat + 1 < Config.memSize then s.pc else 0x200

/-- The schedule with the next tick's input without its quit signal; where the schedule holds none, one with no event,
no quit and the free random byte, so that this tick's course is known (log 6). -/
def State.unquit (s : State) : List TickInput :=
  match s.inputs with
  | [] => [{ events := [], quit := false, rnd := (Config.freeInput s.draws).rnd }]
  | inp :: rest => { inp with quit := false } :: rest

/-- Place an opcode where the next tick fetches it, and set what that takes: RUNNING, `pc` fetchable and below
`prog_end`, no quit in that tick (46 R274; log 6). -/
def State.placeWord (s : State) (op : Word) : State :=
  let pc := s.fetchPlace
  { s with
    pc := pc
    mem := s.mem.writeBytes pc.toNat [op.extractLsb' 8 8, op.extractLsb' 0 8]
    progEnd := if s.progEnd.toNat ≤ pc.toNat then pc + 2 else s.progEnd
    runState := .running
    inputs := s.unquit }

end Sys2Proof.Machine
end

