-- ==== Sys2Proof/Machine/Alu.lean ====
section
/-! DEFINITION. The register and arithmetic/logic instructions (43_register_alu.md). Every operand is read before any
write, and the flag is written last (R183). -/

namespace Sys2Proof.Machine

/-- LD byte (43_register_alu.md R170). -/
def execLdImm (x : Reg) (kk : Byte) (s : State) : Result := done (s.setReg x kk).advance

/-- ADD byte: modulo 256, no flag (43_register_alu.md R171; decision D10, log 12). -/
def execAddImm (x : Reg) (kk : Byte) (s : State) : Result := done (s.setReg x (s.reg x + kk)).advance

/-- LD register (43_register_alu.md R172). -/
def execLdReg (x y : Reg) (s : State) : Result := done (s.setReg x (s.reg y)).advance

/-- OR (43_register_alu.md R173; decision D10, log 12). -/
def execOrReg (x y : Reg) (s : State) : Result := done (s.setReg x (s.reg x ||| s.reg y)).advance

/-- AND (43_register_alu.md R174; decision D10, log 12). -/
def execAndReg (x y : Reg) (s : State) : Result := done (s.setReg x (s.reg x &&& s.reg y)).advance

/-- XOR (43_register_alu.md R175; decision D10, log 12). -/
def execXorReg (x y : Reg) (s : State) : Result := done (s.setReg x (s.reg x ^^^ s.reg y)).advance

/-- ADD register, VF the carry (43_register_alu.md R176). -/
def execAddReg (x y : Reg) (s : State) : Result :=
  done (s.setRegFlag x (s.reg x + s.reg y) (carryFlag (s.reg x) (s.reg y))).advance

/-- SUB, VF the no-borrow of `V[x] - V[y]` (43_register_alu.md R177; decision D8, log 10). -/
def execSub (x y : Reg) (s : State) : Result :=
  done (s.setRegFlag x (s.reg x - s.reg y) (noBorrowFlag (s.reg x) (s.reg y))).advance

/-- SHR: `V[x]` by one, `y` ignored, VF the old bit 0 (43_register_alu.md R178; decision D7, log 9). -/
def execShr (x _y : Reg) (s : State) : Result :=
  done (s.setRegFlag x (s.reg x >>> 1) (shiftRightFlag (s.reg x))).advance

/-- SUBN, VF the no-borrow of `V[y] - V[x]` (43_register_alu.md R179; decision D8, log 10). -/
def execSubn (x y : Reg) (s : State) : Result :=
  done (s.setRegFlag x (s.reg y - s.reg x) (noBorrowFlag (s.reg y) (s.reg x))).advance

/-- SHL: `V[x]` by one, `y` ignored, VF the old bit 7 (43_register_alu.md R180; decision D7, log 9). -/
def execShl (x _y : Reg) (s : State) : Result :=
  done (s.setRegFlag x (s.reg x <<< 1) (shiftLeftFlag (s.reg x))).advance

/-- RND: the tick's random byte, masked (43_register_alu.md R181; log 2). -/
def execRnd (x : Reg) (kk : Byte) (s : State) : Result := done (s.setReg x (s.rnd &&& kk)).advance

end Sys2Proof.Machine
end

