-- ==== Sys2Proof/Machine/Control.lean ====
section
/-! DEFINITION. The control flow instructions (42_control_flow.md). -/

namespace Sys2Proof.Machine

/-- RET: pop, and go past the 2nnn that pushed (42_control_flow.md R134; decision D6, log 22). -/
def execRet (s : State) : Result :=
  if h : 0 < s.sp.val then done (s.popped.setPc (s.stackTop h + 2)) else raise .stackUnderflow .ret s

/-- JP (42_control_flow.md R136). -/
def execJp (nnn : BitVec 12) (s : State) : Result := done (s.setPc (addrOperand nnn))

/-- CALL: push the address of this 2nnn (42_control_flow.md R135; decision D6, log 22). -/
def execCall (nnn : BitVec 12) (s : State) : Result :=
  if h : s.sp.val < 16 then done ((s.push s.pc h).setPc (addrOperand nnn)) else raise .stackOverflow (.call nnn) s

/-- SE byte (42_control_flow.md R137). -/
def execSeImm (x : Reg) (kk : Byte) (s : State) : Result := done (s.skipIf (s.reg x == kk))

/-- SNE byte (42_control_flow.md R138). -/
def execSneImm (x : Reg) (kk : Byte) (s : State) : Result := done (s.skipIf (s.reg x != kk))

/-- SE register (42_control_flow.md R139). -/
def execSeReg (x y : Reg) (s : State) : Result := done (s.skipIf (s.reg x == s.reg y))

/-- SNE register (42_control_flow.md R140). -/
def execSneReg (x y : Reg) (s : State) : Result := done (s.skipIf (s.reg x != s.reg y))

/-- JP V0 (42_control_flow.md R141). -/
def execJpV0 (nnn : BitVec 12) (s : State) : Result := done (s.setPc (addrOperand nnn + zextByte s.regZero))

end Sys2Proof.Machine
end

