-- ==== Sys2Proof/Machine/Display.lean ====
section
/-! DEFINITION. The display instructions (41_display.md). -/

namespace Sys2Proof.Machine

/-- CLS: every cell off (41_display.md R103). -/
def execCls (s : State) : Result := done (s.setFb Screen.clear).advance

/-- DRW: the sprite rows from memory at `I`, XORed in at `(V[x], V[y])`, VF the collision bit (41_display.md R104). -/
def execDrw (x y : Reg) (n : BitVec 4) (s : State) : Result :=
  if accessOk s.indexAddr n.toNat then
    let d := drawSprite (s.reg x) (s.reg y) (s.mem.readBytes s.indexAddr n.toNat) s.fb
    done ((s.setFb d.fb).setReg vf (flagByte d.collide)).advance
  else raise .memRange (.drw x y n) s

end Sys2Proof.Machine
end

