-- ==== Sys2Proof/Machine/IndexMemory.lean ====
section
/-! DEFINITION. The index register and memory instructions (44_index_memory.md). An instruction checks every address
before it writes anything (20_memory.md R55). -/

namespace Sys2Proof.Machine

/-- LD I (44_index_memory.md R210). -/
def execLdI (nnn : BitVec 12) (s : State) : Result := done (s.setIndex (addrOperand nnn)).advance

/-- ADD I: modulo 65536, no flag (44_index_memory.md R211; decision D12, log 14). -/
def execAddI (x : Reg) (s : State) : Result := done (s.setIndex (s.index + zextByte (s.reg x))).advance

/-- LD F (44_index_memory.md R212). -/
def execLdF (x : Reg) (s : State) : Result := done (s.setIndex (fontAddr (s.reg x))).advance

/-- LD B: the digits at `I`, `I+1`, `I+2` (44_index_memory.md R213; decision D13, log 15). -/
def execLdB (x : Reg) (s : State) : Result :=
  if accessOk s.indexAddr 3 then done (s.store s.indexAddr (bcdDigits (s.reg x))).advance
  else raise .memRange (.ldB x) s

/-- LD [I], Vx: `V0..Vx` at `I`.., `I` unchanged (44_index_memory.md R214; decision D11, log 13). -/
def execStRegs (x : Reg) (s : State) : Result :=
  if accessOk s.indexAddr (blockSize x) then done (s.store s.indexAddr (s.regBlock x)).advance
  else raise .memRange (.stRegs x) s

/-- LD Vx, [I]: `V0..Vx` from `I`.., `I` unchanged (44_index_memory.md R215; decision D11, log 13). -/
def execLdRegs (x : Reg) (s : State) : Result :=
  if accessOk s.indexAddr (blockSize x) then done (s.loadRegs x).advance
  else raise .memRange (.ldRegs x) s

end Sys2Proof.Machine
end

