-- ==== Sys2Proof/Machine/KeysTimers.lean ====
section
/-! DEFINITION. The key and timer instructions (45_keys_timers.md). -/

namespace Sys2Proof.Machine

/-- SKP (45_keys_timers.md R240; decision D17, log 18). -/
def execSkp (x : Reg) (s : State) : Result :=
  match keyOperand (s.reg x) with
  | some k => done (s.skipIf (s.key k))
  | none => raise .keyRange (.skp x) s

/-- SKNP (45_keys_timers.md R241; decision D17, log 18). -/
def execSknp (x : Reg) (s : State) : Result :=
  match keyOperand (s.reg x) with
  | some k => done (s.skipIf (!s.key k))
  | none => raise .keyRange (.sknp x) s

/-- LD Vx, DT (45_keys_timers.md R242). -/
def execLdVxDt (x : Reg) (s : State) : Result := done (s.setReg x s.dt).advance

/-- LD DT, Vx (45_keys_timers.md R243). -/
def execLdDtVx (x : Reg) (s : State) : Result := done (s.setDt (s.reg x)).advance

/-- LD ST, Vx (45_keys_timers.md R244). -/
def execLdStVx (x : Reg) (s : State) : Result := done (s.setSt (s.reg x)).advance

/-- LD Vx, K: begin the wait (45_keys_timers.md R245). -/
def execLdVxK (x : Reg) (s : State) : Result := done (s.beginWait x)

end Sys2Proof.Machine
end

