-- ==== Sys2Proof/Machine/Sequencer.lean ====
section
/-! DEFINITION. The tick sequencer (46_sequencer_and_ports.md R272 to R280): one tick, one atomic transaction. -/

namespace Sys2Proof.Machine

/-- After an instruction: the frame is requested unless it faulted (46 R274 step 6, R280; decision D41, log 26). -/
def finishInstr : Result → Result
  | .next t => if t.runState = .faulted then .next t else .next t.requestFrame
  | .fault f => .fault f
  | .refused r => .refused r

/-- Steps 5 and 6 of a RUNNING tick: fetch, decode, execute one instruction, request a frame (46 R278, R280). A fetch
fault records opcode 0 (60_exceptions.md R303); a decode error is reported and skipped (R301). -/
def executeOne (s : State) : Result :=
  match s.fetch with
  | none => .next (s.takeFault .fetchRange 0)
  | some op =>
    match decode op with
    | .error _ => .next (s.reportDecodeError op).requestFrame
    | .ok i => finishInstr (exec i s)

/-- A RUNNING tick: poll, quit, termination check, timers, execute, present, in that order (46 R274). -/
def runningTick (inp : TickInput) (s : State) : Result :=
  let s1 := s.poll inp.events
  if inp.quit then .next s1.terminate
  else if s1.progEnd.toNat ≤ s1.pc.toNat then .next s1.terminate
  else executeOne s1.tickTimers

/-- A BLOCKED_ON_KEY tick: poll, then quit, else the end of the wait on the first press (46 R279). -/
def blockedTick (inp : TickInput) (s : State) : Result :=
  let s1 := s.poll inp.events
  if inp.quit then .next s1.terminate
  else
    match firstPress inp.events with
    | some k => .next (s1.endWait k)
    | none => .next s1

/-- One tick, by run state; TERMINATED and FAULTED are final (46 R273; decision D38, log 28). -/
def tick (s : State) : Result :=
  match s.runState with
  | .running => runningTick s.nextInput s.sample
  | .blockedOnKey => blockedTick s.nextInput s.sample
  | .terminated => .next s.sample
  | .faulted => .next s.sample

end Sys2Proof.Machine
end

