-- ==== Sys2Proof/Machine/Step.lean ====
section
/-! DEFINITION. One step of the machine: one tick. -/

namespace Sys2Proof.Machine

/-- One step is one tick (46_sequencer_and_ports.md R272). -/
def step (s : State) : Host.Outcome State Fault Refusal := tick s

/-- `s` with the instruction whose bits are `w` placed where the next tick fetches it (log 6). Bits above `nbits` are
0, and every instruction is one 16-bit word. -/
def State.withFetchWord (s : State) (nbits w : Nat) : State := s.placeWord (BitVec.ofNat 16 (w % 2 ^ nbits))

end Sys2Proof.Machine
end

