-- ==== Sys2Proof/Machine/Ports.lean ====
section
/-! DEFINITION. The codes of the status registers (10_state.md R32, R34) and of a key event's kind (46 R282), and the
outputs of a tick (46 R284). -/

namespace Sys2Proof.Machine

/-- The 2-bit encoding of `run_state` (10_state.md R32). -/
def RunState.code : RunState → BitVec 2
  | .running => 0
  | .blockedOnKey => 1
  | .terminated => 2
  | .faulted => 3

/-- The 3-bit encoding of `fault_cause`; 6 and 7 are never written (10_state.md R34). -/
def causeCode : Option Fault → BitVec 3
  | none => 0
  | some .stackOverflow => 1
  | some .stackUnderflow => 2
  | some .memRange => 3
  | some .fetchRange => 4
  | some .keyRange => 5

/-- The 1-bit `kind` of a key event: 0 press, 1 release (46 R282). -/
def KeyEventKind.code : KeyEventKind → BitVec 1
  | .press => 0
  | .release => 1

/-- The key event of the input pair `(kind, key)` (46 R282). -/
def KeyEvent.ofPort (kind : BitVec 1) (key : Reg) : KeyEvent :=
  if kind = 0 then { kind := .press, key := key } else { kind := .release, key := key }

/-- `sound_active = (ST > 0)` (46 R271). -/
def State.soundActive (s : State) : Bool := decide (s.st.toNat > 0)

/-- The tick outputs at their widths (46 R284). -/
structure TickOutputs where
  present : Bool
  fbOut : BitVec 2048
  soundActive : Bool
  runState : BitVec 2
  decodeError : Bool
  dePc : Word
  deOp : Word
  faultCause : BitVec 3
  faultPc : Word
  faultOp : Word
deriving DecidableEq, Repr

/-- What the block shows its collaborators after a tick (46 R284). -/
def State.outputs (s : State) : TickOutputs where
  present := s.present
  fbOut := s.fb
  soundActive := s.soundActive
  runState := s.runState.code
  decodeError := s.decodeError
  dePc := s.dePc
  deOp := s.deOp
  faultCause := causeCode s.faultCause
  faultPc := s.faultPc
  faultOp := s.faultOp

end Sys2Proof.Machine
end

