-- ==== Sys2Proof/Safety.lean ====
section
/-! DEFINITION. The terms claims are stated in: what an instruction may change (its frame), the spec's own tables of
register use (10_state.md R23), next pc (42_control_flow.md R130) and fault conditions (60_exceptions.md R302), the
cells a draw lights (41_display.md R101, R102), and the invariant of the machine. Nothing here is read by the step. -/

namespace Sys2Proof.Machine

/-- What an effect may write. A field not named in an effect's `Changes` stays as it was. -/
structure Changes where
  regs : Reg → Bool := fun _ => false
  index : Bool := false
  stack : Bool := false
  delay : Bool := false
  sound : Bool := false
  screen : Bool := false
  wait : Bool := false
  memory : Nat → Bool := fun _ => false

/-- The frame of one instruction that does not fault: `t` differs from `s` at most in `pc` and in what `c` names. The
key state, the fault record, `prog_end`, the inputs and the outputs are never an instruction's to write. -/
structure Frame (c : Changes) (s t : State) : Prop where
  regs : ∀ r, c.regs r = false → t.reg r = s.reg r
  index : c.index = false → t.index = s.index
  stack : c.stack = false → t.sp = s.sp ∧ t.stack = s.stack
  delay : c.delay = false → t.dt = s.dt
  sound : c.sound = false → t.st = s.st
  screen : c.screen = false → t.fb = s.fb
  wait : c.wait = false → t.runState = s.runState ∧ t.waitX = s.waitX
  memory : ∀ a, c.memory a = false → t.mem.read a = s.mem.read a
  keys : t.keys = s.keys
  fault : t.faultCause = s.faultCause ∧ t.faultPc = s.faultPc ∧ t.faultOp = s.faultOp
  progEnd : t.progEnd = s.progEnd
  inputs : t.inputs = s.inputs ∧ t.rnd = s.rnd ∧ t.draws = s.draws
  outputs : t.present = s.present ∧ t.decodeError = s.decodeError ∧ t.dePc = s.dePc ∧ t.deOp = s.deOp

/-- `exec i s` answers a next state, with that `pc`, that frame, and what `post` says of it. -/
def RunsTo (i : Instr) (s : State) (c : Changes) (pc : Word) (post : State → Prop) : Prop :=
  ∃ t, exec i s = .next t ∧ t.pc = pc ∧ Frame c s t ∧ post t

/-- Every word with those fixed digits decodes to that instruction (30_encoding.md R77). -/
def RowDecodes (mask value : Word) (mk : Word → Instr) : Prop :=
  ∀ op : Word, op &&& mask = value → decode op = .ok (mk op)

/-- The addresses `a .. a + n - 1` as a set of stored bytes. -/
def storedBytes (a n : Nat) (b : Nat) : Bool := decide (a ≤ b) && decide (b < a + n)

/-- The registers V0 to Vx. -/
def upTo (x r : Reg) : Bool := decide (r.toNat ≤ x.toNat)

/-- Which general registers an instruction writes when it executes (10_state.md R23, column writes; the write of Fx0A
happens when the wait ends). -/
def writesReg (r : Reg) : Instr → Bool
  | .cls => false
  | .ret => false
  | .jp _ => false
  | .call _ => false
  | .seImm _ _ => false
  | .sneImm _ _ => false
  | .seReg _ _ => false
  | .sneReg _ _ => false
  | .ldImm x _ => r == x
  | .addImm x _ => r == x
  | .ldReg x _ => r == x
  | .orReg x _ => r == x
  | .andReg x _ => r == x
  | .xorReg x _ => r == x
  | .addReg x _ => r == x || r == vf
  | .sub x _ => r == x || r == vf
  | .shr x _ => r == x || r == vf
  | .subn x _ => r == x || r == vf
  | .shl x _ => r == x || r == vf
  | .ldI _ => false
  | .jpV0 _ => false
  | .rnd x _ => r == x
  | .drw _ _ _ => r == vf
  | .skp _ => false
  | .sknp _ => false
  | .ldVxDt x => r == x
  | .ldDtVx _ => false
  | .ldStVx _ => false
  | .ldVxK _ => false
  | .addI _ => false
  | .ldF _ => false
  | .ldB _ => false
  | .stRegs _ => false
  | .ldRegs x => upTo x r

/-- Which general registers an instruction reads (10_state.md R23, column reads). -/
def readsReg (r : Reg) : Instr → Bool
  | .cls => false
  | .ret => false
  | .jp _ => false
  | .call _ => false
  | .seImm x _ => r == x
  | .sneImm x _ => r == x
  | .seReg x y => r == x || r == y
  | .sneReg x y => r == x || r == y
  | .ldImm _ _ => false
  | .addImm x _ => r == x
  | .ldReg _ y => r == y
  | .orReg x y => r == x || r == y
  | .andReg x y => r == x || r == y
  | .xorReg x y => r == x || r == y
  | .addReg x y => r == x || r == y
  | .sub x y => r == x || r == y
  | .shr x _ => r == x
  | .subn x y => r == x || r == y
  | .shl x _ => r == x
  | .ldI _ => false
  | .jpV0 _ => r == 0
  | .rnd _ _ => false
  | .drw x y _ => r == x || r == y
  | .skp x => r == x
  | .sknp x => r == x
  | .ldVxDt _ => false
  | .ldDtVx x => r == x
  | .ldStVx x => r == x
  | .ldVxK _ => false
  | .addI x => r == x
  | .ldF x => r == x
  | .ldB x => r == x
  | .stRegs x => upTo x r
  | .ldRegs _ => false

/-- What each instruction may change when it does not fault: the registers of 10_state.md R23, `I` (R24), the call
stack (R26), the timers (R28), the Display Buffer (R30), the wait (R33), and the bytes stored (20_memory.md R54). -/
def changesOf (i : Instr) (s : State) : Changes where
  regs := fun r => writesReg r i
  index := match i with
    | .ldI _ => true
    | .addI _ => true
    | .ldF _ => true
    | _ => false
  stack := match i with
    | .ret => true
    | .call _ => true
    | _ => false
  delay := match i with
    | .ldDtVx _ => true
    | _ => false
  sound := match i with
    | .ldStVx _ => true
    | _ => false
  screen := match i with
    | .cls => true
    | .drw _ _ _ => true
    | _ => false
  wait := match i with
    | .ldVxK _ => true
    | _ => false
  memory := match i with
    | .ldB _ => storedBytes s.indexAddr 3
    | .stRegs x => storedBytes s.indexAddr (x.toNat + 1)
    | _ => fun _ => false

/-- The fault an instruction raises, by the conditions of 60_exceptions.md R302. -/
def raises (i : Instr) (s : State) : Option Fault :=
  match i with
  | .call _ => if s.sp.val = 16 then some .stackOverflow else none
  | .ret => if s.sp.val = 0 then some .stackUnderflow else none
  | .drw _ _ n => if 0 < n.toNat ∧ 4096 ≤ s.index.toNat + n.toNat - 1 then some .memRange else none
  | .ldB _ => if 4096 ≤ s.index.toNat + 2 then some .memRange else none
  | .stRegs x => if 4096 ≤ s.index.toNat + x.toNat then some .memRange else none
  | .ldRegs x => if 4096 ≤ s.index.toNat + x.toNat then some .memRange else none
  | .skp x => if 15 < (s.reg x).toNat then some .keyRange else none
  | .sknp x => if 15 < (s.reg x).toNat then some .keyRange else none
  | _ => none

/-- The condition of a skip instruction on its operands; `none` for an instruction that is no skip
(42_control_flow.md R137 to R140, 45_keys_timers.md R240, R241). -/
def skipCondition (i : Instr) (s : State) : Option Bool :=
  match i with
  | .seImm x kk => some (decide (s.reg x = kk))
  | .sneImm x kk => some (decide (s.reg x ≠ kk))
  | .seReg x y => some (decide (s.reg x = s.reg y))
  | .sneReg x y => some (decide (s.reg x ≠ s.reg y))
  | .skp x => some (s.key ((s.reg x).setWidth 4))
  | .sknp x => some (!s.key ((s.reg x).setWidth 4))
  | _ => none

/-- The next `pc` of an instruction that does not fault, by the table of 42_control_flow.md R130, as a natural number
before any truncation. -/
def nextPcOf (i : Instr) (s : State) : Nat :=
  match i with
  | .jp nnn => nnn.toNat
  | .call nnn => nnn.toNat
  | .jpV0 nnn => (s.reg 0).toNat + nnn.toNat
  | .ret => (s.stack.toList.getD (s.sp.val - 1) 0).toNat + 2
  | .ldVxK _ => s.pc.toNat
  | _ =>
    match skipCondition i s with
    | some true => s.pc.toNat + 4
    | _ => s.pc.toNat + 2

/-- Cell index `j` is drawn by a pixel of `Dxyn` whose sprite bit is 1 (41_display.md R101, R102), wherever `j` is. -/
def Lit (s : State) (x y : Reg) (n : BitVec 4) (j : Nat) : Prop :=
  ∃ r c : Nat, r < n.toNat ∧ c < 8 ∧ (s.mem.read (s.index.toNat + r)).getLsbD (7 - c) = true ∧
    ((s.reg x).toNat + c) + 64 * ((s.reg y).toNat + r) = j

/-- The value the last event of a poll left for key `k`, none if no event named it (46 R276). -/
def lastEvent (k : Reg) (events : List KeyEvent) : Option KeyEventKind :=
  ((events.filter fun e => e.key == k).getLast?).map KeyEvent.kind

/-- The tick gets as far as its timer stage: RUNNING, no quit, `pc` not past the end (46 R274, steps 1 to 3). -/
def reachesTimers (s : State) : Prop :=
  s.runState = .running ∧ s.nextInput.quit = false ∧ s.pc.toNat < s.progEnd.toNat

/-- The state in which the instruction of a tick executes: inputs sampled, poll done, timers down by one (46 R274). -/
def State.atExecute (s : State) : State := (s.sample.poll s.nextInput.events).tickTimers

/-- The instruction this tick executes, if it executes one: it reaches the timers and the fetched word decodes. -/
def Executes (s : State) (i : Instr) : Prop :=
  reachesTimers s ∧ ∃ op, s.fetch = some op ∧ decode op = .ok i

/-- A change carried through an outcome: what a second run differs by. -/
def mapNext (f : State → State) : Result → Result
  | .next t => .next (f t)
  | .fault r => .fault r
  | .refused r => .refused r

/-- The invariant of the machine. -/
structure Inv (s : State) : Prop where
  /-- Memory is in its canonical form, every listed address below 4096 (20_memory.md R50). -/
  memory : s.mem.wf = true
  /-- The program lies in the address space (10_state.md R35). -/
  progEnd : 512 ≤ s.progEnd.toNat ∧ s.progEnd.toNat ≤ 4096
  /-- `pc` never wraps (42_control_flow.md R142). -/
  pc : s.pc.toNat ≤ 0x10FE
  /-- Every entry on the stack is the address of an executed call (42_control_flow.md R142). -/
  stack : ∀ j e, j < s.sp.val → s.stack[j]? = some e → 0x200 ≤ e.toNat ∧ e.toNat < s.progEnd.toNat
  /-- While waiting, `pc` is at the Fx0A and `wait_x` is its register (10_state.md R33, 45_keys_timers.md R245). -/
  waiting : s.runState = .blockedOnKey →
    s.pc.toNat < s.progEnd.toNat ∧ ∃ op, s.fetch = some op ∧ decode op = .ok (.ldVxK s.waitX)
  /-- The fault record is clear until the core enters FAULTED (10_state.md R34). -/
  noFault : s.runState ≠ .faulted → s.faultCause = none ∧ s.faultPc = 0 ∧ s.faultOp = 0
  /-- In FAULTED a cause is recorded, and the faulting `pc` is the one the core stopped at (60_exceptions.md R303). -/
  faulted : s.runState = .faulted → s.faultCause ≠ none ∧ s.faultPc = s.pc

end Sys2Proof.Machine
end

