-- ==== Sys2Proof/Certificates/Slice0/Obligations.lean ====
section
/-! DEFINITION. The statements about this model, from the numbered rules of spec/. A rule that carries a decision mark
D<n> is the spec's own choice: a statement resting on one says so and is of basis 'derived'. -/

open Sys2Proof Sys2Proof.Machine

/-! ### Display -/

/-- 41_display.md R103: 00E0 turns every cell off, keeps VF and everything else, and advances `pc`. -/
def Obligations.ClearTurnsEveryCellOff : Prop :=
  RowDecodes 0xFFFF 0x00E0 (fun _ => .cls) ∧
  ∀ s : State, RunsTo .cls s { screen := true } (s.pc + 2) fun t => ∀ j < 2048, t.fb.cell j = false

/-- 41_display.md, the draw: Dxyn toggles exactly the cells its 1 bits are placed at, and those with an index of 2048
or more are skipped; only VF and the Display Buffer change. Rests on the spec's decisions D14, D18, D19, D20 (log 16,
20, 21), and on D9 where x or y is F, whose old value is then the coordinate (log 11). -/
def Obligations.DrawTogglesTheDrawnCells : Prop :=
  RowDecodes 0xF000 0xD000 (fun op => .drw (opX op) (opY op) (opN op)) ∧
  ∀ (x y : Reg) (n : BitVec 4) (s : State), (n = 0 ∨ s.index.toNat + n.toNat ≤ 4096) →
    RunsTo (.drw x y n) s { screen := true, regs := fun r => r == vf } (s.pc + 2) fun t =>
      ∀ j < 2048, (t.fb.cell j = true ↔ (s.fb.cell j = true ↔ ¬ Lit s x y n j))

/-- 41_display.md section 2: VF becomes 1 exactly when a drawn pixel meets a cell that was on, and 0 otherwise, whatever
VF held before (where VF is not itself a coordinate register). The pixels' places are the spec's decisions D18 and D19
(log 20, 21), the addresses checked and n = 0 are D14 and D20 (log 16, 21); where x or y is F the coordinate is VF's old
value by D9 (log 11). -/
def Obligations.CollisionFlagIsExact : Prop :=
  ∀ (x y : Reg) (n : BitVec 4) (s : State), (n = 0 ∨ s.index.toNat + n.toNat ≤ 4096) →
    (∃ t, exec (.drw x y n) s = .next t ∧
      ((∃ j < 2048, Lit s x y n j ∧ s.fb.cell j = true) → t.reg vf = 1) ∧
      ((¬ ∃ j < 2048, Lit s x y n j ∧ s.fb.cell j = true) → t.reg vf = 0)) ∧
    (x ≠ vf → y ≠ vf → ∀ v, exec (.drw x y n) (s.setReg vf v) = exec (.drw x y n) s)

/-- 41_display.md section 2: drawing twice with the same coordinates restores the buffer, and the second draw collides
exactly when a drawn cell was off before the first. The first draw itself leaves `I` and the sprite bytes unchanged; the
hypotheses say that it left the coordinates too (x or y may be VF). Which cells are drawn, and VF, rest on the spec's
decisions D9, D14, D18, D19 and D20 (log 11, 16, 20, 21). -/
def Obligations.DrawTwiceRestoresTheDisplay : Prop :=
  ∀ (x y : Reg) (n : BitVec 4) (s t : State), (n = 0 ∨ s.index.toNat + n.toNat ≤ 4096) →
    exec (.drw x y n) s = .next t → t.reg x = s.reg x → t.reg y = s.reg y →
    ∃ u, exec (.drw x y n) t = .next u ∧ u.fb = s.fb ∧
      (u.reg vf = 1 ↔ ∃ j < 2048, Lit s x y n j ∧ s.fb.cell j = false) ∧ (u.reg vf = 0 ∨ u.reg vf = 1)

/-- 95_test_vectors.md S3, 41_display.md section 2: after 00E0 a draw lights exactly the cells of its sprite, with no
collision. Which cells those are rests on the spec's decisions D14, D18, D19 and D20, and on D9 where x or y is F
(log 11, 16, 20, 21). -/
def Obligations.ClearThenDrawShowsTheSprite : Prop :=
  ∀ (x y : Reg) (n : BitVec 4) (s t : State), (n = 0 ∨ s.index.toNat + n.toNat ≤ 4096) →
    exec .cls s = .next t →
    ∃ u, exec (.drw x y n) t = .next u ∧ (∀ j < 2048, (u.fb.cell j = true ↔ Lit s x y n j)) ∧ u.reg vf = 0

/-- 41_display.md R100: a step that changes the Display Buffer executed 00E0 or Dxyn; 00E0 leaves every cell off, and
no write to memory reaches the buffer. -/
def Obligations.OnlyClearAndDrawChangeTheDisplay : Prop :=
  (∀ s t : State, step s = .next t → t.fb ≠ s.fb → Executes s .cls ∨ ∃ x y n, Executes s (.drw x y n)) ∧
  (∀ s t : State, step s = .next t → Executes s .cls → ∀ j < 2048, t.fb.cell j = false)

/-! ### Control flow -/

/-- 42_control_flow.md R136: 1nnn sets `pc` to `nnn` and changes nothing else; one that jumps to its own address is
executed again by every tick, while the timers count down, until quit. -/
def Obligations.JumpSetsPc : Prop :=
  RowDecodes 0xF000 0x1000 (fun op => .jp (opNNN op)) ∧
  (∀ (nnn : BitVec 12) (s : State), RunsTo (.jp nnn) s { } (nnn.setWidth 16) fun t => t.pc.toNat = nnn.toNat) ∧
  ∀ (nnn : BitVec 12) (s t : State), step s = .next t → Executes s (.jp nnn) → nnn.toNat = s.pc.toNat →
    t.runState = .running ∧ t.dt.toNat = s.dt.toNat - 1 ∧ t.st.toNat = s.st.toNat - 1 ∧
      (t.nextInput.quit = false → Executes t (.jp nnn))

/-- 42_control_flow.md R137, R138: 3xkk skips when `V[x] = kk`, 4xkk when not; nothing but `pc` changes. -/
def Obligations.ImmediateSkips : Prop :=
  RowDecodes 0xF000 0x3000 (fun op => .seImm (opX op) (opKK op)) ∧
  RowDecodes 0xF000 0x4000 (fun op => .sneImm (opX op) (opKK op)) ∧
  ∀ (x : Reg) (kk : Byte) (s : State),
    RunsTo (.seImm x kk) s { } (if s.reg x = kk then s.pc + 4 else s.pc + 2) (fun _ => True) ∧
    RunsTo (.sneImm x kk) s { } (if s.reg x = kk then s.pc + 2 else s.pc + 4) (fun _ => True)

/-- 42_control_flow.md, 5xy0 and 9xy0: skip on equal and on different registers. That the low nibble is checked is the
spec's decision D33 (log 27). -/
def Obligations.RegisterSkips : Prop :=
  RowDecodes 0xF00F 0x5000 (fun op => .seReg (opX op) (opY op)) ∧
  RowDecodes 0xF00F 0x9000 (fun op => .sneReg (opX op) (opY op)) ∧
  ∀ (x y : Reg) (s : State),
    RunsTo (.seReg x y) s { } (if s.reg x = s.reg y then s.pc + 4 else s.pc + 2) (fun _ => True) ∧
    RunsTo (.sneReg x y) s { } (if s.reg x = s.reg y then s.pc + 2 else s.pc + 4) (fun _ => True)

/-- 42_control_flow.md, Bnnn: it jumps to `V[0] + nnn`, with no truncation; bits 11 to 8 belong to `nnn`. -/
def Obligations.JumpThroughV0 : Prop :=
  RowDecodes 0xF000 0xB000 (fun op => .jpV0 (opNNN op)) ∧
  ∀ (nnn : BitVec 12) (s : State),
    RunsTo (.jpV0 nnn) s { } (nnn.setWidth 16 + (s.reg 0).setWidth 16) fun t =>
      t.pc.toNat = nnn.toNat + (s.reg 0).toNat

/-- 42_control_flow.md, 2nnn: on a stack that is not full it pushes its own address and jumps. What is pushed is the
spec's decision D6, the fault of a full stack D5 (log 16, 22). -/
def Obligations.CallPushesItsAddress : Prop :=
  RowDecodes 0xF000 0x2000 (fun op => .call (opNNN op)) ∧
  ∀ (nnn : BitVec 12) (s : State), s.sp.val < 16 →
    RunsTo (.call nnn) s { stack := true } (nnn.setWidth 16) fun t =>
      t.sp.val = s.sp.val + 1 ∧ t.stack[s.sp.val]? = some s.pc ∧
      ∀ j < 16, j ≠ s.sp.val → t.stack[j]? = s.stack[j]?

/-- 42_control_flow.md, 00EE: on a stack that is not empty it pops, and goes to the entry plus 2; the entry stays. The
plus 2 is the spec's decision D6, the fault of an empty stack D5 (log 16, 22). -/
def Obligations.ReturnPopsPastTheCall : Prop :=
  RowDecodes 0xFFFF 0x00EE (fun _ => .ret) ∧
  ∀ (s : State) (e : Word), 0 < s.sp.val → s.stack[s.sp.val - 1]? = some e →
    RunsTo .ret s { stack := true } (e + 2) fun t => t.sp.val = s.sp.val - 1 ∧ t.stack = s.stack

/-- 95_test_vectors.md S3: a 2nnn at `p` followed eventually by the 00EE that finds SP, and the entries below it, as the
call left them (the entries above may have changed in nested calls) resumes at `p + 2` with the stack pointer as before
the call. Rests on decision D6 (log 22). -/
def Obligations.ReturnResumesAfterTheCall : Prop :=
  ∀ (nnn : BitVec 12) (s t u : State), s.sp.val < 16 → exec (.call nnn) s = .next t → u.sp = t.sp →
    (∀ j < t.sp.val, u.stack[j]? = t.stack[j]?) →
    ∃ w, exec .ret u = .next w ∧ w.pc = s.pc + 2 ∧ w.sp = s.sp ∧ ∀ j < s.sp.val, w.stack[j]? = s.stack[j]?

/-- 42_control_flow.md section 1: the next `pc` of every instruction that does not fault is the one of the spec's
table, truncated to 16 bits. Rests on decisions D6 and D25 (log 22, 25). -/
def Obligations.NextPcFollowsTheTable : Prop :=
  ∀ (i : Instr) (s : State), raises i s = none → ∃ t, exec i s = .next t ∧ t.pc.toNat = nextPcOf i s % 65536

/-! ### Registers and arithmetic -/

/-- 43_register_alu.md R170, R172: 6xkk loads an immediate, 8xy0 copies a register; VF is a destination like any
other. -/
def Obligations.LoadsIntoARegister : Prop :=
  RowDecodes 0xF000 0x6000 (fun op => .ldImm (opX op) (opKK op)) ∧
  RowDecodes 0xF00F 0x8000 (fun op => .ldReg (opX op) (opY op)) ∧
  ∀ (x y : Reg) (kk : Byte) (s : State),
    RunsTo (.ldImm x kk) s { regs := fun r => r == x } (s.pc + 2) (fun t => t.reg x = kk) ∧
    RunsTo (.ldReg x y) s { regs := fun r => r == x } (s.pc + 2) (fun t => t.reg x = s.reg y)

/-- 43_register_alu.md, 7xkk and 8xy1 to 8xy3: the sum modulo 256 and the three bitwise operations. That VF stays is
the spec's decision D10 (log 12). -/
def Obligations.AddImmediateAndLogic : Prop :=
  ∀ (x y : Reg) (kk : Byte) (s : State),
    RunsTo (.addImm x kk) s { regs := fun r => r == x } (s.pc + 2)
      (fun t => (t.reg x).toNat = ((s.reg x).toNat + kk.toNat) % 256) ∧
    RunsTo (.orReg x y) s { regs := fun r => r == x } (s.pc + 2)
      (fun t => ∀ b < 8, (t.reg x).getLsbD b = ((s.reg x).getLsbD b || (s.reg y).getLsbD b)) ∧
    RunsTo (.andReg x y) s { regs := fun r => r == x } (s.pc + 2)
      (fun t => ∀ b < 8, (t.reg x).getLsbD b = ((s.reg x).getLsbD b && (s.reg y).getLsbD b)) ∧
    RunsTo (.xorReg x y) s { regs := fun r => r == x } (s.pc + 2)
      (fun t => ∀ b < 8, (t.reg x).getLsbD b = ((s.reg x).getLsbD b ^^ (s.reg y).getLsbD b))

/-- 43_register_alu.md, 8xy4: the sum modulo 256 in `V[x]`, then the carry in VF; with `x = F` the carry remains. The
order is the spec's decision D9 (log 11). -/
def Obligations.AddWithCarry : Prop :=
  ∀ (x y : Reg) (s : State),
    RunsTo (.addReg x y) s { regs := fun r => r == x || r == vf } (s.pc + 2) fun t =>
      (x ≠ vf → (t.reg x).toNat = ((s.reg x).toNat + (s.reg y).toNat) % 256) ∧
      t.reg vf = if (s.reg x).toNat + (s.reg y).toNat > 255 then 1 else 0

/-- 43_register_alu.md, 8xy5 and 8xy7: the difference modulo 256 in `V[x]`, then 1 in VF when no borrow occurs, equal
operands included, else 0. The polarity is the spec's decision D8, the order D9 (log 10, 11). -/
def Obligations.SubtractWithNoBorrow : Prop :=
  ∀ (x y : Reg) (s : State),
    RunsTo (.sub x y) s { regs := fun r => r == x || r == vf } (s.pc + 2) (fun t =>
      (x ≠ vf → (t.reg x).toNat = ((s.reg x).toNat + 256 - (s.reg y).toNat) % 256) ∧
      t.reg vf = if (s.reg x).toNat ≥ (s.reg y).toNat then 1 else 0) ∧
    RunsTo (.subn x y) s { regs := fun r => r == x || r == vf } (s.pc + 2) (fun t =>
      (x ≠ vf → (t.reg x).toNat = ((s.reg y).toNat + 256 - (s.reg x).toNat) % 256) ∧
      t.reg vf = if (s.reg y).toNat ≥ (s.reg x).toNat then 1 else 0)

/-- 43_register_alu.md, 8xy6 and 8xyE: `V[x]` shifted by one, then the bit shifted out in VF; `y` plays no part. Rests
on the spec's decisions D7 and D9 (log 9, 11). -/
def Obligations.ShiftsByOne : Prop :=
  ∀ (x y y' : Reg) (s : State),
    RunsTo (.shr x y) s { regs := fun r => r == x || r == vf } (s.pc + 2) (fun t =>
      (x ≠ vf → (t.reg x).toNat = (s.reg x).toNat / 2) ∧ (t.reg vf).toNat = (s.reg x).toNat % 2) ∧
    RunsTo (.shl x y) s { regs := fun r => r == x || r == vf } (s.pc + 2) (fun t =>
      (x ≠ vf → (t.reg x).toNat = (s.reg x).toNat * 2 % 256) ∧ (t.reg vf).toNat = (s.reg x).toNat / 128) ∧
    exec (.shr x y) s = exec (.shr x y') s ∧ exec (.shl x y) s = exec (.shl x y') s

/-- 95_test_vectors.md S3: the outcome of 8xy4, 8xy5 and 8xy7 does not depend on what VF held before, where VF is no
operand. Rests on decision D9 (log 11). -/
def Obligations.FlagIgnoresOldVF : Prop :=
  ∀ (x y : Reg) (v : Byte) (s : State), x ≠ vf → y ≠ vf →
    exec (.addReg x y) (s.setReg vf v) = exec (.addReg x y) s ∧
    exec (.sub x y) (s.setReg vf v) = exec (.sub x y) s ∧
    exec (.subn x y) (s.setReg vf v) = exec (.subn x y) s

/-- 43_register_alu.md, Cxkk: the tick's random byte AND `kk`, for every value of that byte, so no bit outside `kk`.
That `rnd` is a free input is the spec's decision D28 (log 2). -/
def Obligations.RandomByteIsMasked : Prop :=
  ∀ (x : Reg) (kk : Byte) (s : State),
    RunsTo (.rnd x kk) s { regs := fun r => r == x } (s.pc + 2) fun t =>
      t.reg x = s.rnd &&& kk ∧ t.reg x &&& ~~~kk = 0

/-- 46_sequencer_and_ports.md section 3: the random byte is read only by Cxkk; every other instruction does the same
whatever it is. Rests on decision D28 (log 2). -/
def Obligations.OnlyRandomReadsTheRandomByte : Prop :=
  ∀ (i : Instr) (v : Byte) (s : State), (∀ x kk, i ≠ .rnd x kk) →
    exec i { s with rnd := v } = mapNext (fun t => { t with rnd := v }) (exec i s)

/-- 10_state.md section 2, the table of register use: a register that an instruction neither reads nor writes neither
influences it nor is changed by it. That 8xy6 and 8xyE do not read Vy is the spec's decision D7 (log 9). -/
def Obligations.UnusedRegistersDoNotMatter : Prop :=
  ∀ (i : Instr) (r : Reg) (v : Byte) (s : State), readsReg r i = false → writesReg r i = false →
    exec i (s.setReg r v) = mapNext (fun t => t.setReg r v) (exec i s)

/-! ### Index register and memory -/

/-- 44_index_memory.md R210, R212: Annn sets `I`; Fx29 sets `I` to five times `V[x]`, not reduced to a nibble. -/
def Obligations.IndexLoads : Prop :=
  RowDecodes 0xF000 0xA000 (fun op => .ldI (opNNN op)) ∧
  RowDecodes 0xF0FF 0xF029 (fun op => .ldF (opX op)) ∧
  ∀ (nnn : BitVec 12) (x : Reg) (s : State),
    RunsTo (.ldI nnn) s { index := true } (s.pc + 2) (fun t => t.index = nnn.setWidth 16) ∧
    RunsTo (.ldF x) s { index := true } (s.pc + 2) (fun t => t.index.toNat = (s.reg x).toNat * 5)

/-- 44_index_memory.md, Fx1E: `I + V[x]` modulo 65536, no flag. Rests on the spec's decision D12 (log 14). -/
def Obligations.IndexAdd : Prop :=
  ∀ (x : Reg) (s : State),
    RunsTo (.addI x) s { index := true } (s.pc + 2) fun t =>
      t.index.toNat = (s.index.toNat + (s.reg x).toNat) % 65536

/-- 44_index_memory.md, Fx33: the three decimal digits at `I`, `I + 1`, `I + 2`, and no other byte. Rests on the spec's
decisions D13, D14 and D16 (log 15, 16). -/
def Obligations.DecimalDigitsAreStored : Prop :=
  ∀ (x : Reg) (s : State), s.index.toNat + 2 < 4096 →
    RunsTo (.ldB x) s { memory := storedBytes s.indexAddr 3 } (s.pc + 2) fun t =>
      (t.mem.read s.index.toNat).toNat = (s.reg x).toNat / 100 ∧
      (t.mem.read (s.index.toNat + 1)).toNat = (s.reg x).toNat / 10 % 10 ∧
      (t.mem.read (s.index.toNat + 2)).toNat = (s.reg x).toNat % 10

/-- 44_index_memory.md, Fx55: V0 to Vx at `I` to `I + x`, no other byte, `I` unchanged. Rests on the spec's decisions
D11 and D14 (log 13, 16). -/
def Obligations.RegisterBlockIsStored : Prop :=
  ∀ (x : Reg) (s : State), s.index.toNat + x.toNat < 4096 →
    RunsTo (.stRegs x) s { memory := storedBytes s.indexAddr (x.toNat + 1) } (s.pc + 2) fun t =>
      ∀ k : Reg, k.toNat ≤ x.toNat → t.mem.read (s.index.toNat + k.toNat) = s.reg k

/-- 44_index_memory.md, Fx65: V0 to Vx from `I` to `I + x`, no other register, `I` unchanged. Rests on the spec's
decisions D11, D14 and D16 (log 13, 16). -/
def Obligations.RegisterBlockIsLoaded : Prop :=
  ∀ (x : Reg) (s : State), s.index.toNat + x.toNat < 4096 →
    RunsTo (.ldRegs x) s { regs := upTo x } (s.pc + 2) fun t =>
      ∀ k : Reg, k.toNat ≤ x.toNat → t.reg k = s.mem.read (s.index.toNat + k.toNat)

/-- 44_index_memory.md, Fx55 then Fx65: from any state with the memory and `I` the store left, the load brings back the
stored registers. Rests on the spec's decisions D11 and D14 (log 13, 16). -/
def Obligations.StoredBlockLoadsBack : Prop :=
  ∀ (x : Reg) (s t u : State), s.index.toNat + x.toNat < 4096 →
    exec (.stRegs x) s = .next t → u.mem = t.mem → u.index = t.index →
    ∃ w, exec (.ldRegs x) u = .next w ∧
      ∀ r : Reg, w.reg r = if r.toNat ≤ x.toNat then s.reg r else u.reg r

/-- 20_memory.md section 4: bytes stored by Fx55 are the ones the next fetch from there sees, the one at `pc` the high
byte. Rests on the spec's decisions D1 and D32 (log 8, 32). -/
def Obligations.StoredOpcodeIsFetched : Prop :=
  ∀ (x k : Reg) (s t u : State), s.index.toNat + x.toNat < 4096 → k.toNat + 1 ≤ x.toNat →
    exec (.stRegs x) s = .next t → u.mem = t.mem → u.pc.toNat = s.index.toNat + k.toNat → 512 ≤ u.pc.toNat →
    ∃ op, u.fetch = some op ∧ op.toNat = (s.reg k).toNat * 256 + (s.reg (k + 1)).toNat

/-! ### Keys and timers -/

/-- 45_keys_timers.md, Ex9E and ExA1 for a key number of at most 15: skip on pressed and on released. The fault above
15 is the spec's decision D17 (log 18), and stated in FaultsExactlyWhereTheTableSays. -/
def Obligations.KeySkips : Prop :=
  ∀ (x k : Reg) (s : State), (s.reg x).toNat = k.toNat →
    RunsTo (.skp x) s { } (if s.key k = true then s.pc + 4 else s.pc + 2) (fun _ => True) ∧
    RunsTo (.sknp x) s { } (if s.key k = true then s.pc + 2 else s.pc + 4) (fun _ => True)

/-- 45_keys_timers.md section 2: Fx07 reads DT, Fx15 and Fx18 write DT and ST. In a tick, Fx07 sees DT after
this tick's decrement, and a value written is not decremented in the tick that writes it; the first decrement of DT
happens in the next tick that reaches its timer stage, and a next tick that does not reach it keeps DT
(46_sequencer_and_ports.md section 1). Which ticks reach it rests on the spec's decision D24 (log 24). -/
def Obligations.TimerInstructions : Prop :=
  RowDecodes 0xF0FF 0xF007 (fun op => .ldVxDt (opX op)) ∧
  RowDecodes 0xF0FF 0xF015 (fun op => .ldDtVx (opX op)) ∧
  RowDecodes 0xF0FF 0xF018 (fun op => .ldStVx (opX op)) ∧
  (∀ (x : Reg) (s : State),
    RunsTo (.ldVxDt x) s { regs := fun r => r == x } (s.pc + 2) (fun t => t.reg x = s.dt) ∧
    RunsTo (.ldDtVx x) s { delay := true } (s.pc + 2) (fun t => t.dt = s.reg x) ∧
    RunsTo (.ldStVx x) s { sound := true } (s.pc + 2) (fun t => t.st = s.reg x)) ∧
  ∀ (x : Reg) (s t : State), step s = .next t →
    (Executes s (.ldVxDt x) → (t.reg x).toNat = s.dt.toNat - 1) ∧
    (Executes s (.ldDtVx x) → t.dt = s.reg x ∧
      (reachesTimers t → t.atExecute.dt.toNat = (s.reg x).toNat - 1) ∧
      (¬ reachesTimers t → ∀ u, step t = .next u → u.dt = s.reg x)) ∧
    (Executes s (.ldStVx x) → t.st = s.reg x ∧ (t.outputs.soundActive = true ↔ 0 < (s.reg x).toNat))

/-- 46_sequencer_and_ports.md R270: each timer goes down by one, staying at 0, in a RUNNING tick that reaches its timer
stage (unless that tick's instruction then writes it), and keeps its value in every other tick. -/
def Obligations.TimersCountOncePerExecutingTick : Prop :=
  ∀ s t : State, step s = .next t →
    (reachesTimers s → s.atExecute.dt.toNat = s.dt.toNat - 1 ∧ s.atExecute.st.toNat = s.st.toNat - 1) ∧
    (reachesTimers s → (∀ x, ¬ Executes s (.ldDtVx x)) → t.dt.toNat = s.dt.toNat - 1) ∧
    (reachesTimers s → (∀ x, ¬ Executes s (.ldStVx x)) → t.st.toNat = s.st.toNat - 1) ∧
    (¬ reachesTimers s → t.dt = s.dt ∧ t.st = s.st)

/-- 70_reset_and_hazards.md section 2, the timer hazard: after `k` ticks that all execute, none of them a Fx15, DT is
`k` lower, floored at 0. -/
def Obligations.DelayTimerCountsDown : Prop :=
  ∀ (k : Nat) (s t : State),
    (∀ j u, j < k → core.run j s = .next u → reachesTimers u ∧ ∀ x, ¬ Executes u (.ldDtVx x)) →
    core.run k s = .next t → t.dt.toNat = s.dt.toNat - k

/-- 45_keys_timers.md, Fx0A: executing it begins the wait for `V[x]`; `pc` and `V[x]` stay. Rests on the spec's decision
D25 (log 25). -/
def Obligations.KeyWaitBegins : Prop :=
  ∀ (x : Reg) (s : State), RunsTo (.ldVxK x) s { wait := true } s.pc fun t => t.runState = .blockedOnKey ∧ t.waitX = x

/-- 45_keys_timers.md section 3, 46_sequencer_and_ports.md section 2: a waiting tick without quit whose poll delivers a
press ends the wait with the first press's key code and does nothing more; without a press it only polls. Rests on the
spec's decisions D25 and D26 (log 25). -/
def Obligations.KeyWaitEndsOnTheFirstPress : Prop :=
  ∀ s : State, s.runState = .blockedOnKey → s.nextInput.quit = false →
    (∀ e, (s.nextInput.events.filter fun e => e.kind == .press).head? = some e →
      ∃ t, step s = .next t ∧ t.reg s.waitX = e.key.setWidth 8 ∧ (∀ r, r ≠ s.waitX → t.reg r = s.reg r) ∧
        t = { s with
          regs := t.regs, keys := t.keys, pc := s.pc + 2, runState := .running,
          inputs := s.inputs.tail, rnd := t.rnd, draws := t.draws, present := false, decodeError := false }) ∧
    ((s.nextInput.events.filter fun e => e.kind == .press) = [] →
      ∃ t, step s = .next t ∧
        t = { s with
          keys := t.keys, inputs := s.inputs.tail, rnd := t.rnd, draws := t.draws,
          present := false, decodeError := false })

/-- 46_sequencer_and_ports.md section 2, the input poll: in a RUNNING or BLOCKED_ON_KEY tick every key ends at the value
the last event for it left, or at its old value when no event named it; a tick in a final state polls nothing. That a
waiting tick applies every event is the spec's decision D26 (log 25), that a tick in a final state polls nothing D38
(log 28). -/
def Obligations.PollLeavesTheLastEvent : Prop :=
  ∀ (s t : State) (k : Reg), step s = .next t →
    (s.runState = .running ∨ s.runState = .blockedOnKey →
      t.key k = match lastEvent k s.nextInput.events with
        | some e => decide (e = .press)
        | none => s.key k) ∧
    (s.runState = .terminated ∨ s.runState = .faulted → t.key k = s.key k)

/-- 46_sequencer_and_ports.md section 3: the `kind` input of a key event is 0 for a press, which sets its key, and 1 for
a release, which clears it; no other key changes. The 4-bit key is the spec's decision D40 (log 1), the interface D23. -/
def Obligations.KeyEventCodes : Prop :=
  ∀ (s : State) (kind : BitVec 1) (k : Reg),
    (KeyEvent.ofPort kind k).key = k ∧ (KeyEvent.ofPort kind k).kind.code = kind ∧
    (s.poll [KeyEvent.ofPort kind k]).key k = decide (kind = 0) ∧
    ∀ j, j ≠ k → (s.poll [KeyEvent.ofPort kind k]).key j = s.key j

/-! ### Faults, decode errors and the tick -/

/-- 60_exceptions.md section 1, the table of causes: an instruction faults exactly under the spec's condition; then it
has no effect but the fault record and FAULTED. Otherwise the fault record stays. Rests on the spec's decisions D5,
D14, D17 and D21 (log 7, 16, 18). -/
def Obligations.FaultsExactlyWhereTheTableSays : Prop :=
  ∀ (i : Instr) (s : State),
    (∀ c, raises i s = some c →
      exec i s = .next { s with
        faultCause := some c, faultPc := s.pc, faultOp := encode i, runState := .faulted }) ∧
    (raises i s = none →
      ∃ t, exec i s = .next t ∧ t.faultCause = s.faultCause ∧ (t.runState = .faulted → s.runState = .faulted))

/-- The frames of 10_state.md and 20_memory.md for all instructions at once: one that does not fault changes at most
`pc` and what the spec's tables give it. Rests on the spec's decisions D7, D10 and D11 (log 9, 12, 13). -/
def Obligations.InstructionsKeepTheirFrame : Prop :=
  ∀ (i : Instr) (s : State), raises i s = none → ∃ t, exec i s = .next t ∧ Frame (changesOf i s) s t

/-- 60_exceptions.md section 1, fault entry in a tick: the state in FAULTED is the one before the instruction plus the
fault record and the tick's poll and timer decrement; no frame is requested; the ports show the cause's code. Rests on
the spec's decisions D21 and D41 (log 7, 26). -/
def Obligations.FaultEntryIsPrecise : Prop :=
  ∀ (s : State) (op : Word) (i : Instr) (c : Fault), reachesTimers s → s.fetch = some op → decode op = .ok i →
    raises i s.atExecute = some c →
    ∃ t, step s = .next t ∧
      t = { s.atExecute with faultCause := some c, faultPc := s.pc, faultOp := op, runState := .faulted } ∧
      t.present = false ∧ t.outputs.runState = 3 ∧
      t.outputs.faultCause = match c with
        | .stackOverflow => 1
        | .stackUnderflow => 2
        | .memRange => 3
        | .fetchRange => 4
        | .keyRange => 5

/-- 20_memory.md section 2: the fetch is big-endian and admits exactly `0x200 <= pc` and `pc + 1 < 4096`; elsewhere the
tick faults with opcode 0, after its poll and timers and with no frame (46_sequencer_and_ports.md section 2). Rests on the
spec's decisions D1, D15 and D21 (log 7, 8, 17), on D24 for the order of the checks (log 24), and on D41 for DT, ST and
present after the fault (log 26). -/
def Obligations.FetchIsBigEndianAndRangeChecked : Prop :=
  ∀ s : State,
    (512 ≤ s.pc.toNat → s.pc.toNat + 1 < 4096 →
      ∃ op, s.fetch = some op ∧
        op.toNat = (s.mem.read s.pc.toNat).toNat * 256 + (s.mem.read (s.pc.toNat + 1)).toNat) ∧
    (reachesTimers s → (s.pc.toNat < 512 ∨ 4096 ≤ s.pc.toNat + 1) →
      step s = .next { s.atExecute with
        faultCause := some .fetchRange, faultPc := s.pc, faultOp := 0, runState := .faulted })

/-- 60_exceptions.md section 1, decode errors: reported with `pc` and the word, skipped, nothing else changed, the run
goes on; the tick's poll, timers and frame request are those of 46_sequencer_and_ports.md section 2. Rests on the spec's
decisions D22 and D33 (log 27), D24 for the order of the checks (log 24) and D30 for the frame (log 26). -/
def Obligations.DecodeErrorsAreReportedAndSkipped : Prop :=
  ∀ (s : State) (op : Word), reachesTimers s → s.fetch = some op → (∀ r ∈ opcodeTable, op &&& r.mask ≠ r.value) →
    step s = .next { s.atExecute with
      decodeError := true, dePc := s.pc, deOp := op, pc := s.pc + 2, present := true }

/-- A step runs the decoded instruction (46_sequencer_and_ports.md section 2): when the tick reaches its timers and the
fetched word decodes to `i`, the step is `exec i` in the state after the poll and the timers, then the frame request
unless it faulted. That a tick that faults requests none is the spec's decision D41, the frame after
the instruction D30 (log 26), the order of the checks D24 (log 24). -/
def Obligations.StepExecutesTheDecodedInstruction : Prop :=
  ∀ (s : State) (op : Word) (i : Instr), reachesTimers s → s.fetch = some op → decode op = .ok i →
    (step s = match exec i s.atExecute with
      | .next t => .next (if t.runState = .faulted then t else { t with present := true })
      | .fault r => .fault r
      | .refused r => .refused r) ∧
    s.atExecute = { s with
      inputs := s.inputs.tail, rnd := s.nextInput.rnd, draws := s.atExecute.draws,
      keys := s.nextInput.events.foldl applyEvent s.keys, dt := timerTick s.dt, st := timerTick s.st,
      present := false, decodeError := false }

/-- 46_sequencer_and_ports.md section 2, quit: in a RUNNING or BLOCKED_ON_KEY tick it ends the run after the poll,
before anything else, a key press of the same poll included. Rests on the spec's decision D27 (log 25). -/
def Obligations.QuitEndsTheRun : Prop :=
  ∀ s : State, (s.runState = .running ∨ s.runState = .blockedOnKey) → s.nextInput.quit = true →
    ∃ t, step s = .next t ∧
      t = { s with
        runState := .terminated, keys := t.keys, inputs := s.inputs.tail, rnd := t.rnd, draws := t.draws,
        present := false, decodeError := false }

/-- 46_sequencer_and_ports.md section 2, the termination check: a RUNNING tick with `pc` at or past `prog_end` ends the
run with no decrement, no instruction and no frame. Rests on the spec's decision D24 (log 24). -/
def Obligations.PastTheEndTerminates : Prop :=
  ∀ s : State, s.runState = .running → s.nextInput.quit = false → s.progEnd.toNat ≤ s.pc.toNat →
    ∃ t, step s = .next t ∧
      t = { s with
        runState := .terminated, keys := t.keys, inputs := s.inputs.tail, rnd := t.rnd, draws := t.draws,
        present := false, decodeError := false }

/-- 46_sequencer_and_ports.md section 2, final states: a tick in TERMINATED or FAULTED changes no state of the core.
Rests on the spec's decision D38 (log 28). -/
def Obligations.FinalStatesChangeNothing : Prop :=
  ∀ s : State, (s.runState = .terminated ∨ s.runState = .faulted) →
    ∃ t, step s = .next t ∧
      t = { s with
        inputs := s.inputs.tail, rnd := t.rnd, draws := t.draws, present := false, decodeError := false }

/-- 46_sequencer_and_ports.md section 2, presentation: a frame is requested by exactly the ticks that execute a word
without a fault. Rests on the spec's decisions D30 and D41 (log 26). -/
def Obligations.FrameRequestedExactlyWhenExecuted : Prop :=
  ∀ s t : State, step s = .next t →
    (t.outputs.present = true ↔ reachesTimers s ∧ t.runState ≠ .faulted) ∧ t.outputs.fbOut = t.fb

/-- 60_exceptions.md section 1: no tick stops the model; a fault and a decode error are next states, and no
instruction is refused. Rests on log 7. -/
def Obligations.EveryStepAnswersNext : Prop := ∀ s : State, ∃ t, step s = .next t

/-- 10_state.md sections 7 and 1: `prog_end` is not written after the load, and the fault record is written only by the
tick that enters FAULTED. Rests on the spec's decisions D21 and D24 (log 7, 24). -/
def Obligations.WriteOnceRegisters : Prop :=
  ∀ s t : State, step s = .next t →
    t.progEnd = s.progEnd ∧
    (s.runState = .faulted ∨ t.runState ≠ .faulted →
      t.faultCause = s.faultCause ∧ t.faultPc = s.faultPc ∧ t.faultOp = s.faultOp)

/-! ### The invariant, the load and reset -/

/-- Every step keeps the invariant: canonical memory, `pc` that never wraps, stack entries that are addresses of
executed calls, the waiting Fx0A at `pc`, and a fault record that is set exactly in FAULTED (42_control_flow.md section
1, 10_state.md sections 3, 4 and 7). Rests on the spec's decisions D6, D15, D21, D24 and D25. -/
def Obligations.EveryStepKeepsInv : Prop := ∀ s t : State, Inv s → step s = .next t → Inv t

/-- The invariant holds at reset (10_state.md section 8). Rests on the spec's decision D3 for SP and the fault record
(log 5), and on log 6, that reset is the load of an empty ROM. -/
def Obligations.InvHoldsAtReset : Prop := Inv State.reset

/-- 70_reset_and_hazards.md section 1, the load: the font from 0, the ROM from 512 in file order, every other byte 0,
`pc` at 0x200, RUNNING, `prog_end` past the ROM, every other piece of state at its reset value, and the invariant holds;
a ROM of more than 3584 bytes starts no run.
Rests on the spec's decisions D2, D3, D36 and D39 (log 4, 5, 29). -/
def Obligations.LoadPlacesFontAndProgram : Prop :=
  ∀ (font : Vector Byte 80) (rom : List Byte),
    (rom.length ≤ 3584 →
      ∃ s, State.load font rom = some s ∧
        (∀ a b, font.toList[a]? = some b → s.mem.read a = b) ∧
        (∀ k b, rom[k]? = some b → s.mem.read (512 + k) = b) ∧
        (∀ a, 80 ≤ a → a < 512 ∨ 512 + rom.length ≤ a → s.mem.read a = 0) ∧
        s.pc = 0x200 ∧ s.progEnd.toNat = 512 + rom.length ∧ s.runState = .running ∧
        s = { State.reset with mem := s.mem, progEnd := s.progEnd } ∧ Inv s) ∧
    (3584 < rom.length → State.load font rom = none)

/-- 10_state.md section 8: the values after the load of an empty ROM. The zeros are the spec's decision D3 (log 5);
memory and `pc` are the source's, the font's bytes decision D2 (log 4); that reset is this load is log 6. -/
def Obligations.ResetValues : Prop :=
  State.load Config.font [] = some State.reset ∧
  (∀ r, State.reset.reg r = 0) ∧ State.reset.index = 0 ∧ State.reset.pc = 0x200 ∧ State.reset.sp.val = 0 ∧
  (∀ j < 16, State.reset.stack[j]? = some 0) ∧ State.reset.dt = 0 ∧ State.reset.st = 0 ∧
  (∀ k, State.reset.key k = false) ∧ (∀ j < 2048, State.reset.fb.cell j = false) ∧
  State.reset.runState.code = 0 ∧ State.reset.waitX = 0 ∧ causeCode State.reset.faultCause = 0 ∧
  State.reset.faultPc = 0 ∧ State.reset.faultOp = 0 ∧ State.reset.progEnd = 0x200 ∧
  (∀ a, 80 ≤ a → State.reset.mem.read a = 0) ∧
  (∀ a b, Config.font.toList[a]? = some b → State.reset.mem.read a = b)

/-- 70_reset_and_hazards.md section 1: an empty ROM is terminated by the first tick, whatever that tick's inputs, with
no instruction executed. Rests on the spec's decision D24 (log 24). -/
def Obligations.EmptyRomTerminatesAtOnce : Prop :=
  ∀ (font : Vector Byte 80) (ins : List TickInput) (s : State), State.load font [] = some s →
    ∃ t, step { s with inputs := ins } = .next t ∧ t.runState = .terminated ∧ t.present = false ∧
      t.regs = s.regs ∧ t.mem = s.mem ∧ t.pc = s.pc

/-! ### Encoding -/

/-- Decode and encode agree for every instruction and every operand value: the word and its two bytes in memory order
decode to the instruction, with the bytes after them left over (30_encoding.md sections 1 and 2). That the high byte comes
first in memory is the spec's decision D1 (log 8), that the fixed digits are checked D33 (log 27). -/
def Obligations.DecodeOfEncode : Prop :=
  ∀ i : Instr, i.wellFormed = true ∧ decode (encode i) = .ok i ∧
    ∀ rest, decodeBytes ((encode i).extractLsb' 8 8 :: (encode i).extractLsb' 0 8 :: rest) = .ok (i, rest)

/-- Each word has at most one meaning, and none of its bits is dropped: a word that decodes to `i` is the encoding of
`i` (30_encoding.md section 2). That every fixed digit is checked is the spec's decision D33 (log 27). -/
def Obligations.EncodeOfDecode : Prop := ∀ (op : Word) (i : Instr), decode op = .ok i → encode i = op

/-- 30_encoding.md section 2: the decoder answers an instruction exactly for the words that match a row of the table by
mask and match, that row is the instruction's own and the only one, and every other word is a decode error. That the
fixed nibbles are checked is the spec's decision D33 (log 27). -/
def Obligations.DecoderAgreesWithOpcodeTable : Prop :=
  ∀ op : Word,
    (∀ i, decode op = .ok i →
      ∃ r, opcodeTable[i.row - 1]? = some r ∧ op &&& r.mask = r.value ∧
        ∀ r' ∈ opcodeTable, op &&& r'.mask = r'.value → r' = r) ∧
    (decode op = .error (.decodeError op) ↔ ∀ r ∈ opcodeTable, op &&& r.mask ≠ r.value)

/-- Words of the spec's own programs, vectors and examples decode to the instruction they stand for, and its decode-error words
do not (95_test_vectors.md sections 1 to 3, 45_keys_timers.md section 1, 30_encoding.md section 2). That 5121 is refused rests on the spec's decision D33 (log 27), and that the words are read
big-endian on D1 (log 8). -/
def Obligations.SpecWordsDecode : Prop :=
  decodeTableWord 16 0x00E0 = some .cls ∧ decodeTableWord 16 0x1204 = some (.jp 0x204) ∧
  decodeTableWord 16 0x8125 = some (.sub 1 2) ∧ decodeTableWord 16 0xD015 = some (.drw 0 1 5) ∧
  decodeTableWord 16 0xE59E = some (.skp 5) ∧ decodeTableWord 16 0xF233 = some (.ldB 2) ∧
  decodeTableWord 16 0x0000 = none ∧ decodeTableWord 16 0x5121 = none ∧ decodeTableWord 16 0xFFFF = none
end

