-- ==== Sys2Proof/Laws/Encoding.lean ====
section
/-! SUPPORT. The fields of a word built by the layouts of 30_encoding.md R73, and the words of the opcode table's
rows. -/

namespace Sys2Proof

theorem toNat_append {n m : Nat} (a : BitVec n) (b : BitVec m) : (a ++ b).toNat = a.toNat * 2 ^ m + b.toNat := by
  rw [BitVec.toNat_append, ← Nat.shiftLeft_add_eq_or_of_lt b.isLt, Nat.shiftLeft_eq]

/-! ### Format NNN -/

@[simp] theorem opHigh_nnn (h : BitVec 4) (nnn : BitVec 12) : opHigh (h ++ nnn) = h := by
  apply BitVec.eq_of_toNat_eq; simp only [opHigh, BitVec.extractLsb'_toNat, toNat_append, Nat.shiftRight_eq_div_pow]; omega

@[simp] theorem opNNN_nnn (h : BitVec 4) (nnn : BitVec 12) : opNNN (h ++ nnn) = nnn := by
  apply BitVec.eq_of_toNat_eq; simp only [opNNN, BitVec.extractLsb'_toNat, toNat_append, Nat.shiftRight_eq_div_pow]; omega

/-! ### Formats XKK and X -/

@[simp] theorem opHigh_xkk (h x : BitVec 4) (kk : Byte) : opHigh (h ++ x ++ kk) = h := by
  apply BitVec.eq_of_toNat_eq; simp only [opHigh, BitVec.extractLsb'_toNat, toNat_append, Nat.shiftRight_eq_div_pow]; omega

@[simp] theorem opX_xkk (h x : BitVec 4) (kk : Byte) : opX (h ++ x ++ kk) = x := by
  apply BitVec.eq_of_toNat_eq; simp only [opX, BitVec.extractLsb'_toNat, toNat_append, Nat.shiftRight_eq_div_pow]; omega

@[simp] theorem opKK_xkk (h x : BitVec 4) (kk : Byte) : opKK (h ++ x ++ kk) = kk := by
  apply BitVec.eq_of_toNat_eq; simp only [opKK, BitVec.extractLsb'_toNat, toNat_append, Nat.shiftRight_eq_div_pow]; omega

/-! ### Formats XY and XYN -/

@[simp] theorem opHigh_xyn (h x y n : BitVec 4) : opHigh (h ++ x ++ y ++ n) = h := by
  apply BitVec.eq_of_toNat_eq; simp only [opHigh, BitVec.extractLsb'_toNat, toNat_append, Nat.shiftRight_eq_div_pow]; omega

@[simp] theorem opX_xyn (h x y n : BitVec 4) : opX (h ++ x ++ y ++ n) = x := by
  apply BitVec.eq_of_toNat_eq; simp only [opX, BitVec.extractLsb'_toNat, toNat_append, Nat.shiftRight_eq_div_pow]; omega

@[simp] theorem opY_xyn (h x y n : BitVec 4) : opY (h ++ x ++ y ++ n) = y := by
  apply BitVec.eq_of_toNat_eq; simp only [opY, BitVec.extractLsb'_toNat, toNat_append, Nat.shiftRight_eq_div_pow]; omega

@[simp] theorem opN_xyn (h x y n : BitVec 4) : opN (h ++ x ++ y ++ n) = n := by
  apply BitVec.eq_of_toNat_eq; simp only [opN, BitVec.extractLsb'_toNat, toNat_append, Nat.shiftRight_eq_div_pow]; omega

/-! ### A word from its fields -/

theorem word_nnn (op : Word) : opHigh op ++ opNNN op = op := by
  apply BitVec.eq_of_toNat_eq
  simp only [opHigh, opNNN, BitVec.extractLsb'_toNat, toNat_append, Nat.shiftRight_eq_div_pow]; omega

theorem word_xkk (op : Word) : opHigh op ++ opX op ++ opKK op = op := by
  apply BitVec.eq_of_toNat_eq
  simp only [opHigh, opX, opKK, BitVec.extractLsb'_toNat, toNat_append, Nat.shiftRight_eq_div_pow]; omega

theorem word_xyn (op : Word) : opHigh op ++ opX op ++ opY op ++ opN op = op := by
  apply BitVec.eq_of_toNat_eq
  simp only [opHigh, opX, opY, opN, BitVec.extractLsb'_toNat, toNat_append, Nat.shiftRight_eq_div_pow]; omega

/-! ### The fixed digits of a row, as fields (30_encoding.md R77) -/

/-- A field that the mask covers whole holds the match's digits. -/
theorem field_of_mask {op mask value : Word} (h : op &&& mask = value) (lo len : Nat)
    (hm : mask.extractLsb' lo len = BitVec.allOnes len) : op.extractLsb' lo len = value.extractLsb' lo len := by
  have hx := congrArg (BitVec.extractLsb' lo len) h
  rwa [BitVec.extractLsb'_and, hm, BitVec.and_allOnes] at hx

theorem opHigh_of_mask {op mask value : Word} (h : op &&& mask = value)
    (hm : mask.extractLsb' 12 4 = BitVec.allOnes 4 := by decide) : opHigh op = opHigh value := field_of_mask h 12 4 hm

theorem opN_of_mask {op mask value : Word} (h : op &&& mask = value)
    (hm : mask.extractLsb' 0 4 = BitVec.allOnes 4 := by decide) : opN op = opN value := field_of_mask h 0 4 hm

theorem opKK_of_mask {op mask value : Word} (h : op &&& mask = value)
    (hm : mask.extractLsb' 0 8 = BitVec.allOnes 8 := by decide) : opKK op = opKK value := field_of_mask h 0 8 hm

/-- The two bytes of a word, joined again (20_memory.md R56). -/
theorem opcodeOf_bytes (op : Word) : opcodeOf (op.extractLsb' 8 8) (op.extractLsb' 0 8) = op := by
  apply BitVec.eq_of_toNat_eq
  simp only [opcodeOf, BitVec.extractLsb'_toNat, toNat_append, Nat.shiftRight_eq_div_pow]; omega

/-- Every instruction is well formed: the types bound the fields, and no register field is illegal (30_encoding.md
R75). -/
theorem Instr.wellFormed_all (i : Instr) : i.wellFormed = true := by
  have h4 : ∀ x : BitVec 4, x.toNat < 16 := fun x => x.isLt
  have h8 : ∀ x : BitVec 8, x.toNat < 256 := fun x => x.isLt
  have h12 : ∀ x : BitVec 12, x.toNat < 4096 := fun x => x.isLt
  cases i <;> simp [Instr.wellFormed, Instr.fields, OpField.wellFormed, OpField.inWord, OpField.fits, OpField.x,
    OpField.y, OpField.n, OpField.kk, OpField.nnn, h4, h8, h12]

end Sys2Proof
end

