-- ==== Sys2Proof/Laws/Raster.lean ====
section
/-! SUPPORT. What the rasterizer's pieces do to one cell. -/

namespace Sys2Proof.Machine

theorem Screen.cell_toggle (fb : Screen) (j k : Nat) :
    (fb.toggle j).cell k = (fb.cell k ^^ (decide (j < 2048) && decide (k = j))) := by
  simp only [Screen.toggle, Screen.cell, BitVec.getLsbD_xor, BitVec.getLsbD_twoPow]
  congr 2
  simp [eq_comm]

@[simp] theorem Screen.cell_clear (j : Nat) : Screen.clear.cell j = false := by simp [Screen.clear, Screen.cell]

/-- A cell outside the buffer is off. -/
theorem Screen.cell_outside (fb : Screen) {j : Nat} (h : 2048 ≤ j) : fb.cell j = false := BitVec.getLsbD_of_ge fb j h

/-- Screens with the same cells are equal. -/
theorem Screen.eq_of_cell {a b : Screen} (h : ∀ j < 2048, a.cell j = b.cell j) : a = b :=
  BitVec.eq_of_getLsbD_eq h

/-- One plot toggles its cell, if the index is inside the buffer (41_display.md R101). -/
theorem Draw.cell_plot (d : Draw) (j k : Nat) :
    (d.plot j).fb.cell k = (d.fb.cell k ^^ (decide (j < 2048) && decide (k = j))) := by
  unfold Draw.plot
  split
  · exact Screen.cell_toggle d.fb j k
  · next h => simp only [Config.fbCells] at h; simp [h]

/-- One plot collides exactly when it turns off a cell (41_display.md R105). -/
theorem Draw.collide_plot (d : Draw) (j : Nat) :
    (d.plot j).collide = (d.collide || (decide (j < 2048) && d.fb.cell j)) := by
  unfold Draw.plot
  split
  · next h => simp only [Config.fbCells] at h; simp [h]
  · next h => simp only [Config.fbCells] at h; simp [h]

/-- The indices a list of sprite rows draws, in the order of the loop (41_display.md R101, R104). -/
def litIndices (px0 py0 : Nat) : Nat → List Byte → List Nat
  | _, [] => []
  | r, row :: rows =>
    ((List.range 8).filter (spriteBit row)).map (pixelIndex px0 py0 r) ++ litIndices px0 py0 (r + 1) rows

theorem drawRow_eq (px0 py0 r : Nat) (row : Byte) (d : Draw) :
    drawRow px0 py0 r row d = (((List.range 8).filter (spriteBit row)).map (pixelIndex px0 py0 r)).foldl Draw.plot d := by
  unfold drawRow
  rw [List.foldl_map, List.foldl_filter]
  rfl

/-- A draw plots the lit indices one after another. -/
theorem drawRows_eq (px0 py0 r : Nat) (rows : List Byte) (d : Draw) :
    drawRows px0 py0 r rows d = (litIndices px0 py0 r rows).foldl Draw.plot d := by
  induction rows generalizing r d with
  | nil => rfl
  | cons row rows ih => simp only [drawRows, litIndices, List.foldl_append, ih, drawRow_eq]

/-- Index `j` is lit by some row and column whose sprite bit is 1. -/
theorem mem_litIndices (px0 py0 r : Nat) (rows : List Byte) (j : Nat) :
    j ∈ litIndices px0 py0 r rows ↔
      ∃ i c, c < 8 ∧ (∃ row, rows[i]? = some row ∧ spriteBit row c = true) ∧ pixelIndex px0 py0 (r + i) c = j := by
  induction rows generalizing r with
  | nil => simp [litIndices]
  | cons row rows ih =>
    simp only [litIndices, List.mem_append, List.mem_map, List.mem_filter, List.mem_range, ih]
    constructor
    · rintro (⟨c, ⟨hc, hb⟩, hj⟩ | ⟨i, c, hc, ⟨w, hw, hb⟩, hj⟩)
      · exact ⟨0, c, hc, ⟨row, rfl, hb⟩, hj⟩
      · exact ⟨i + 1, c, hc, ⟨w, hw, hb⟩, by rw [← hj]; congr 1; omega⟩
    · rintro ⟨i, c, hc, ⟨w, hw, hb⟩, hj⟩
      cases i with
      | zero =>
        obtain rfl : row = w := by simpa using hw
        exact .inl ⟨c, ⟨hc, hb⟩, hj⟩
      | succ i => exact .inr ⟨i, c, hc, ⟨w, by simpa using hw, hb⟩, by rw [← hj]; congr 1; omega⟩

/-- Distinct pixels have distinct indices: the lit indices rise (41_display.md R106). -/
theorem litIndices_sorted (px0 py0 r : Nat) (rows : List Byte) :
    (litIndices px0 py0 r rows).Pairwise (· < ·) := by
  induction rows generalizing r with
  | nil => exact List.Pairwise.nil
  | cons row rows ih =>
    refine List.pairwise_append.mpr ⟨?_, ih (r + 1), ?_⟩
    · refine List.Pairwise.map _ ?_ ((List.pairwise_lt_range (n := 8)).filter _)
      intro a b hab
      simp only [pixelIndex]
      omega
    · intro a ha b hb
      obtain ⟨c, hc, rfl⟩ := List.mem_map.mp ha
      obtain ⟨i, c', _, _, rfl⟩ := (mem_litIndices _ _ _ _ _).mp hb
      have h8 : c < 8 := List.mem_range.mp (List.mem_filter.mp hc).1
      simp only [pixelIndex, Config.fbWidth]
      omega

/-- Plotting distinct indices toggles each of those inside the buffer once and nothing else. -/
theorem cell_foldl_plot (js : List Nat) (hd : js.Nodup) (d : Draw) (k : Nat) :
    (js.foldl Draw.plot d).fb.cell k = (d.fb.cell k ^^ (decide (k < 2048) && decide (k ∈ js))) := by
  induction js generalizing d with
  | nil => simp
  | cons j js ih =>
    have hn := List.nodup_cons.mp hd
    rw [List.foldl_cons, ih hn.2, Draw.cell_plot]
    by_cases hk : k = j
    · subst hk; simp [hn.1]
    · simp [hk]

/-- The collision bit of plotting distinct indices: some plotted cell inside the buffer was on before. -/
theorem collide_foldl_plot (js : List Nat) (hd : js.Nodup) (d : Draw) :
    (js.foldl Draw.plot d).collide = (d.collide || js.any fun j => decide (j < 2048) && d.fb.cell j) := by
  induction js generalizing d with
  | nil => simp
  | cons j js ih =>
    have hn := List.nodup_cons.mp hd
    rw [List.foldl_cons, ih hn.2, Draw.collide_plot, List.any_cons, Bool.or_assoc]
    congr 2
    rw [Bool.eq_iff_iff]
    simp only [List.any_eq_true]
    refine exists_congr fun k => and_congr_right fun hk => ?_
    have hkj : k ≠ j := fun e => hn.1 (e ▸ hk)
    rw [Draw.cell_plot]
    simp [hkj]

/-- The drawn indices of a sprite are all different, so no cell is toggled twice by one draw. -/
theorem litIndices_nodup (px0 py0 r : Nat) (rows : List Byte) : (litIndices px0 py0 r rows).Nodup :=
  (litIndices_sorted px0 py0 r rows).imp Nat.ne_of_lt

/-- A draw toggles the cells its 1 bits are placed at (41_display.md R101, R102, R104). -/
theorem cell_drawSprite (vx vy : Byte) (rows : List Byte) (fb : Screen) (k : Nat) :
    (drawSprite vx vy rows fb).fb.cell k =
      (fb.cell k ^^ (decide (k < 2048) && decide (k ∈ litIndices vx.toNat vy.toNat 0 rows))) := by
  rw [drawSprite, drawRows_eq, cell_foldl_plot _ (litIndices_nodup _ _ _ _)]

/-- A draw collides when a drawn cell was on before it (41_display.md R105). -/
theorem collide_drawSprite (vx vy : Byte) (rows : List Byte) (fb : Screen) :
    (drawSprite vx vy rows fb).collide =
      (litIndices vx.toNat vy.toNat 0 rows).any fun j => decide (j < 2048) && fb.cell j := by
  rw [drawSprite, drawRows_eq, collide_foldl_plot _ (litIndices_nodup _ _ _ _), Bool.false_or]

end Sys2Proof.Machine
end

