-- ==== Sys2Proof/Laws/Memory.lean ====
section
/-! SUPPORT. The laws of memory: read after write, for every list; and the canonical form, which every operation
keeps. -/

namespace Sys2Proof.Machine

@[simp] theorem Memory.read_nil (a : Nat) : Memory.read [] a = Memory.resetByte a := rfl

theorem Memory.read_cons (b : Nat) (u : Byte) (m : Memory) (a : Nat) :
    Memory.read ((b, u) :: m) a = if a = b then u else Memory.read m a := rfl

/-- The erased address reads as at reset, every other one as before. -/
theorem Memory.read_erase (m : Memory) (a b : Nat) :
    (m.erase a).read b = if b = a then Memory.resetByte a else m.read b := by
  induction m with
  | nil => simp only [Memory.erase, List.filter_nil, read_nil]; split <;> simp_all
  | cons c m ih =>
    obtain ⟨k, u⟩ := c
    simp only [Memory.erase, List.filter_cons] at ih ⊢
    by_cases hk : k = a
    · simp only [hk, bne_self_eq_false, Bool.false_eq_true, if_false, ih, read_cons]
      split <;> simp_all
    · simp only [bne_iff_ne, ne_eq, hk, not_false_eq_true, if_true, read_cons, ih]
      split <;> split <;> simp_all

/-- Inserting at an address that is not listed. -/
theorem Memory.read_insert (m : Memory) (a b : Nat) (v : Byte) (h : ∀ c ∈ m, c.1 ≠ a) :
    (Memory.insert a v m).read b = if b = a then v else m.read b := by
  induction m with
  | nil => simp only [Memory.insert, read_cons]
  | cons c m ih =>
    obtain ⟨k, u⟩ := c
    have hk : k ≠ a := h (k, u) (by simp)
    have hm := ih fun c hc => h c (by simp [hc])
    simp only [Memory.insert]
    split
    · simp only [read_cons]
    · simp only [read_cons, hm]
      split <;> split <;> simp_all

theorem Memory.erase_absent (m : Memory) (a : Nat) : ∀ c ∈ m.erase a, c.1 ≠ a := by
  intro c hc
  simpa [Memory.erase] using (List.mem_filter.mp hc).2

/-- Read after write, at the same address and at every other (20_memory.md R52, R53, R61). -/
theorem Memory.read_write (m : Memory) (a b : Nat) (v : Byte) :
    (m.write a v).read b = if b = a then v else m.read b := by
  unfold Memory.write
  split
  · next h => simp only [read_erase, h]
  · rw [read_insert _ _ _ _ (m.erase_absent a), read_erase]
    split <;> simp_all

@[simp] theorem Memory.read_write_same (m : Memory) (a : Nat) (v : Byte) : (m.write a v).read a = v := by
  simp [read_write]

theorem Memory.read_write_other (m : Memory) {a b : Nat} (v : Byte) (h : b ≠ a) :
    (m.write a v).read b = m.read b := by
  simp [read_write, h]

/-- A block of bytes: inside it the byte written, outside it the byte before (20_memory.md R57). -/
theorem Memory.read_writeBytes (m : Memory) (a : Nat) (vs : List Byte) (b : Nat) :
    (m.writeBytes a vs).read b = if a ≤ b ∧ b < a + vs.length then vs.getD (b - a) 0 else m.read b := by
  induction vs generalizing m a with
  | nil => simp [Memory.writeBytes]
  | cons v vs ih =>
    simp only [Memory.writeBytes, ih, read_write, List.length_cons]
    by_cases hb : b = a
    · subst hb
      simp
    · by_cases h1 : a + 1 ≤ b ∧ b < a + 1 + vs.length
      · have h2 : a ≤ b ∧ b < a + (vs.length + 1) := by omega
        rw [if_pos h1, if_pos h2, show b - a = (b - (a + 1)) + 1 by omega, List.getD_cons_succ]
      · have h2 : ¬(a ≤ b ∧ b < a + (vs.length + 1)) := by omega
        rw [if_neg h1, if_neg h2, if_neg hb]

theorem Memory.read_writeBytes_outside (m : Memory) (a : Nat) (vs : List Byte) (b : Nat)
    (h : ¬(a ≤ b ∧ b < a + vs.length)) : (m.writeBytes a vs).read b = m.read b := by
  rw [read_writeBytes, if_neg h]

@[simp] theorem Memory.length_readBytes (m : Memory) (a n : Nat) : (m.readBytes a n).length = n := by
  induction n generalizing a with
  | zero => rfl
  | succ n ih => simp [Memory.readBytes, ih]

/-- Byte `k` of a block read is the byte at `a + k`. -/
theorem Memory.getElem?_readBytes (m : Memory) (a n k : Nat) :
    (m.readBytes a n)[k]? = if k < n then some (m.read (a + k)) else none := by
  induction n generalizing a k with
  | zero => simp [Memory.readBytes]
  | succ n ih =>
    cases k with
    | zero => simp [Memory.readBytes]
    | succ k =>
      simp only [Memory.readBytes, List.getElem?_cons_succ, ih, Nat.add_lt_add_iff_right]
      rw [show a + 1 + k = a + (k + 1) by omega]

/-! ### The canonical form -/

theorem Memory.wfAbove_mono (m : Memory) {lo lo' : Nat} (h : lo ≤ lo') (hw : m.wfAbove lo' = true) :
    m.wfAbove lo = true := by
  cases m with
  | nil => rfl
  | cons c m =>
    simp only [Memory.wfAbove, Bool.and_eq_true, decide_eq_true_eq] at hw ⊢
    exact ⟨⟨⟨by omega, hw.1.1.2⟩, hw.1.2⟩, hw.2⟩

theorem Memory.wfAbove_erase (m : Memory) (a lo : Nat) (hw : m.wfAbove lo = true) : (m.erase a).wfAbove lo = true := by
  induction m generalizing lo with
  | nil => rfl
  | cons c m ih =>
    obtain ⟨k, u⟩ := c
    simp only [Memory.wfAbove, Bool.and_eq_true, decide_eq_true_eq] at hw
    have hm := ih (k + 1) hw.2
    simp only [Memory.erase, List.filter_cons] at hm ⊢
    split
    · simp only [Memory.wfAbove, Bool.and_eq_true, decide_eq_true_eq]
      exact ⟨⟨⟨hw.1.1.1, hw.1.1.2⟩, hw.1.2⟩, hm⟩
    · exact wfAbove_mono _ (by omega) hm

theorem Memory.wfAbove_insert (m : Memory) (a lo : Nat) (v : Byte) (hlo : lo ≤ a) (ha : a < Config.memSize)
    (hv : v ≠ Memory.resetByte a) (hm : ∀ c ∈ m, c.1 ≠ a) (hw : m.wfAbove lo = true) :
    (Memory.insert a v m).wfAbove lo = true := by
  induction m generalizing lo with
  | nil => simp only [Memory.insert, Memory.wfAbove, Bool.and_eq_true, decide_eq_true_eq]; exact ⟨⟨⟨hlo, ha⟩, hv⟩, trivial⟩
  | cons c m ih =>
    obtain ⟨k, u⟩ := c
    have hk : k ≠ a := hm (k, u) (by simp)
    simp only [Memory.wfAbove, Bool.and_eq_true, decide_eq_true_eq] at hw
    simp only [Memory.insert]
    split
    · simp only [Memory.wfAbove, Bool.and_eq_true, decide_eq_true_eq]
      exact ⟨⟨⟨hlo, ha⟩, hv⟩, ⟨⟨by omega, hw.1.1.2⟩, hw.1.2⟩, hw.2⟩
    · simp only [Memory.wfAbove, Bool.and_eq_true, decide_eq_true_eq]
      exact ⟨hw.1, ih (k + 1) (by omega) (fun c hc => hm c (by simp [hc])) hw.2⟩

/-- A write inside the address space keeps the canonical form. -/
theorem Memory.wf_write (m : Memory) (a : Nat) (v : Byte) (ha : a < Config.memSize) (hw : m.wf = true) :
    (m.write a v).wf = true := by
  unfold Memory.write
  split
  · exact wfAbove_erase m a 0 hw
  · next hv => exact wfAbove_insert _ a 0 v (Nat.zero_le a) ha hv (m.erase_absent a) (wfAbove_erase m a 0 hw)

/-- So does a block of writes. -/
theorem Memory.wf_writeBytes (m : Memory) (a : Nat) (vs : List Byte) (ha : a + vs.length ≤ Config.memSize)
    (hw : m.wf = true) : (m.writeBytes a vs).wf = true := by
  induction vs generalizing m a with
  | nil => exact hw
  | cons v vs ih =>
    simp only [List.length_cons] at ha
    exact ih (m.write a v) (a + 1) (by omega) (wf_write m a v (by omega) hw)

/-- The memory of the reset state lists nothing and is canonical. -/
theorem Memory.wf_nil : Memory.wf [] = true := rfl

/-- In the canonical form a cell is listed exactly where memory differs from the reset contents. -/
theorem Memory.read_below (m : Memory) {lo a : Nat} (hw : m.wfAbove lo = true) (h : a < lo) :
    m.read a = Memory.resetByte a := by
  induction m generalizing lo with
  | nil => rfl
  | cons c m ih =>
    obtain ⟨k, u⟩ := c
    simp only [Memory.wfAbove, Bool.and_eq_true, decide_eq_true_eq] at hw
    rw [read_cons, if_neg (by omega)]
    exact ih hw.2 (by omega)

/-- Canonical memories that read alike are the same list. -/
theorem Memory.eq_of_read (m m' : Memory) {lo : Nat} (hw : m.wfAbove lo = true) (hw' : m'.wfAbove lo = true)
    (h : ∀ a, m.read a = m'.read a) : m = m' := by
  induction m generalizing m' lo with
  | nil =>
    cases m' with
    | nil => rfl
    | cons c m' =>
      obtain ⟨k, u⟩ := c
      simp only [Memory.wfAbove, Bool.and_eq_true, decide_eq_true_eq] at hw'
      have := h k
      simp only [read_nil, read_cons, if_true] at this
      exact absurd this.symm hw'.1.2
  | cons c m ih =>
    obtain ⟨k, u⟩ := c
    have hwc := hw
    simp only [Memory.wfAbove, Bool.and_eq_true, decide_eq_true_eq] at hw
    cases m' with
    | nil =>
      have := h k
      simp only [read_nil, read_cons, if_true] at this
      exact absurd this hw.1.2
    | cons c' m' =>
      obtain ⟨k', u'⟩ := c'
      have hwc' := hw'
      simp only [Memory.wfAbove, Bool.and_eq_true, decide_eq_true_eq] at hw'
      have hk : k = k' := by
        rcases Nat.lt_trichotomy k k' with hlt | heq | hgt
        · have h1 := h k
          simp only [read_cons, if_true, if_neg (Nat.ne_of_lt hlt)] at h1
          rw [read_below m' hw'.2 (by omega)] at h1
          exact absurd h1 hw.1.2
        · exact heq
        · have h1 := h k'
          simp only [read_cons, if_true, if_neg (Nat.ne_of_lt hgt)] at h1
          rw [read_below m hw.2 (by omega)] at h1
          exact absurd h1.symm hw'.1.2
      subst hk
      have hu : u = u' := by simpa [read_cons] using h k
      have hm : m = m' := by
        refine ih m' hw.2 hw'.2 fun a => ?_
        by_cases ha : a = k
        · rw [ha, read_below m hw.2 (by omega), read_below m' hw'.2 (by omega)]
        · simpa [read_cons, ha] using h a
      rw [hu, hm]

end Sys2Proof.Machine
end

