-- ==== Sys2Proof/Laws/State.lean ====
section
/-! SUPPORT. One lemma per field per update of the state, each true by unfolding the update once, so that no later
proof unfolds a record update. -/

namespace Sys2Proof.Machine

variable (s : State)

@[simp] theorem State.setReg_regs (x : Reg) (v : Byte) : (s.setReg x v).regs = s.regs.set x.toNat v x.isLt := rfl
@[simp] theorem State.setReg_index (x : Reg) (v : Byte) : (s.setReg x v).index = s.index := rfl
@[simp] theorem State.setReg_pc (x : Reg) (v : Byte) : (s.setReg x v).pc = s.pc := rfl
@[simp] theorem State.setReg_stack (x : Reg) (v : Byte) : (s.setReg x v).stack = s.stack := rfl
@[simp] theorem State.setReg_sp (x : Reg) (v : Byte) : (s.setReg x v).sp = s.sp := rfl
@[simp] theorem State.setReg_dt (x : Reg) (v : Byte) : (s.setReg x v).dt = s.dt := rfl
@[simp] theorem State.setReg_st (x : Reg) (v : Byte) : (s.setReg x v).st = s.st := rfl
@[simp] theorem State.setReg_keys (x : Reg) (v : Byte) : (s.setReg x v).keys = s.keys := rfl
@[simp] theorem State.setReg_fb (x : Reg) (v : Byte) : (s.setReg x v).fb = s.fb := rfl
@[simp] theorem State.setReg_mem (x : Reg) (v : Byte) : (s.setReg x v).mem = s.mem := rfl
@[simp] theorem State.setReg_runState (x : Reg) (v : Byte) : (s.setReg x v).runState = s.runState := rfl
@[simp] theorem State.setReg_waitX (x : Reg) (v : Byte) : (s.setReg x v).waitX = s.waitX := rfl
@[simp] theorem State.setReg_faultCause (x : Reg) (v : Byte) : (s.setReg x v).faultCause = s.faultCause := rfl
@[simp] theorem State.setReg_faultPc (x : Reg) (v : Byte) : (s.setReg x v).faultPc = s.faultPc := rfl
@[simp] theorem State.setReg_faultOp (x : Reg) (v : Byte) : (s.setReg x v).faultOp = s.faultOp := rfl
@[simp] theorem State.setReg_progEnd (x : Reg) (v : Byte) : (s.setReg x v).progEnd = s.progEnd := rfl
@[simp] theorem State.setReg_inputs (x : Reg) (v : Byte) : (s.setReg x v).inputs = s.inputs := rfl
@[simp] theorem State.setReg_rnd (x : Reg) (v : Byte) : (s.setReg x v).rnd = s.rnd := rfl
@[simp] theorem State.setReg_draws (x : Reg) (v : Byte) : (s.setReg x v).draws = s.draws := rfl
@[simp] theorem State.setReg_present (x : Reg) (v : Byte) : (s.setReg x v).present = s.present := rfl
@[simp] theorem State.setReg_decodeError (x : Reg) (v : Byte) : (s.setReg x v).decodeError = s.decodeError := rfl
@[simp] theorem State.setReg_dePc (x : Reg) (v : Byte) : (s.setReg x v).dePc = s.dePc := rfl
@[simp] theorem State.setReg_deOp (x : Reg) (v : Byte) : (s.setReg x v).deOp = s.deOp := rfl

@[simp] theorem State.setRegFlag_regs (x : Reg) (v : Byte) (c : Bool) : (s.setRegFlag x v c).regs = ((s.setReg x v).setReg vf (flagByte c)).regs := rfl
@[simp] theorem State.setRegFlag_index (x : Reg) (v : Byte) (c : Bool) : (s.setRegFlag x v c).index = s.index := rfl
@[simp] theorem State.setRegFlag_pc (x : Reg) (v : Byte) (c : Bool) : (s.setRegFlag x v c).pc = s.pc := rfl
@[simp] theorem State.setRegFlag_stack (x : Reg) (v : Byte) (c : Bool) : (s.setRegFlag x v c).stack = s.stack := rfl
@[simp] theorem State.setRegFlag_sp (x : Reg) (v : Byte) (c : Bool) : (s.setRegFlag x v c).sp = s.sp := rfl
@[simp] theorem State.setRegFlag_dt (x : Reg) (v : Byte) (c : Bool) : (s.setRegFlag x v c).dt = s.dt := rfl
@[simp] theorem State.setRegFlag_st (x : Reg) (v : Byte) (c : Bool) : (s.setRegFlag x v c).st = s.st := rfl
@[simp] theorem State.setRegFlag_keys (x : Reg) (v : Byte) (c : Bool) : (s.setRegFlag x v c).keys = s.keys := rfl
@[simp] theorem State.setRegFlag_fb (x : Reg) (v : Byte) (c : Bool) : (s.setRegFlag x v c).fb = s.fb := rfl
@[simp] theorem State.setRegFlag_mem (x : Reg) (v : Byte) (c : Bool) : (s.setRegFlag x v c).mem = s.mem := rfl
@[simp] theorem State.setRegFlag_runState (x : Reg) (v : Byte) (c : Bool) : (s.setRegFlag x v c).runState = s.runState := rfl
@[simp] theorem State.setRegFlag_waitX (x : Reg) (v : Byte) (c : Bool) : (s.setRegFlag x v c).waitX = s.waitX := rfl
@[simp] theorem State.setRegFlag_faultCause (x : Reg) (v : Byte) (c : Bool) : (s.setRegFlag x v c).faultCause = s.faultCause := rfl
@[simp] theorem State.setRegFlag_faultPc (x : Reg) (v : Byte) (c : Bool) : (s.setRegFlag x v c).faultPc = s.faultPc := rfl
@[simp] theorem State.setRegFlag_faultOp (x : Reg) (v : Byte) (c : Bool) : (s.setRegFlag x v c).faultOp = s.faultOp := rfl
@[simp] theorem State.setRegFlag_progEnd (x : Reg) (v : Byte) (c : Bool) : (s.setRegFlag x v c).progEnd = s.progEnd := rfl
@[simp] theorem State.setRegFlag_inputs (x : Reg) (v : Byte) (c : Bool) : (s.setRegFlag x v c).inputs = s.inputs := rfl
@[simp] theorem State.setRegFlag_rnd (x : Reg) (v : Byte) (c : Bool) : (s.setRegFlag x v c).rnd = s.rnd := rfl
@[simp] theorem State.setRegFlag_draws (x : Reg) (v : Byte) (c : Bool) : (s.setRegFlag x v c).draws = s.draws := rfl
@[simp] theorem State.setRegFlag_present (x : Reg) (v : Byte) (c : Bool) : (s.setRegFlag x v c).present = s.present := rfl
@[simp] theorem State.setRegFlag_decodeError (x : Reg) (v : Byte) (c : Bool) : (s.setRegFlag x v c).decodeError = s.decodeError := rfl
@[simp] theorem State.setRegFlag_dePc (x : Reg) (v : Byte) (c : Bool) : (s.setRegFlag x v c).dePc = s.dePc := rfl
@[simp] theorem State.setRegFlag_deOp (x : Reg) (v : Byte) (c : Bool) : (s.setRegFlag x v c).deOp = s.deOp := rfl

@[simp] theorem State.loadRegs_index (x : Reg) : (s.loadRegs x).index = s.index := rfl
@[simp] theorem State.loadRegs_pc (x : Reg) : (s.loadRegs x).pc = s.pc := rfl
@[simp] theorem State.loadRegs_stack (x : Reg) : (s.loadRegs x).stack = s.stack := rfl
@[simp] theorem State.loadRegs_sp (x : Reg) : (s.loadRegs x).sp = s.sp := rfl
@[simp] theorem State.loadRegs_dt (x : Reg) : (s.loadRegs x).dt = s.dt := rfl
@[simp] theorem State.loadRegs_st (x : Reg) : (s.loadRegs x).st = s.st := rfl
@[simp] theorem State.loadRegs_keys (x : Reg) : (s.loadRegs x).keys = s.keys := rfl
@[simp] theorem State.loadRegs_fb (x : Reg) : (s.loadRegs x).fb = s.fb := rfl
@[simp] theorem State.loadRegs_mem (x : Reg) : (s.loadRegs x).mem = s.mem := rfl
@[simp] theorem State.loadRegs_runState (x : Reg) : (s.loadRegs x).runState = s.runState := rfl
@[simp] theorem State.loadRegs_waitX (x : Reg) : (s.loadRegs x).waitX = s.waitX := rfl
@[simp] theorem State.loadRegs_faultCause (x : Reg) : (s.loadRegs x).faultCause = s.faultCause := rfl
@[simp] theorem State.loadRegs_faultPc (x : Reg) : (s.loadRegs x).faultPc = s.faultPc := rfl
@[simp] theorem State.loadRegs_faultOp (x : Reg) : (s.loadRegs x).faultOp = s.faultOp := rfl
@[simp] theorem State.loadRegs_progEnd (x : Reg) : (s.loadRegs x).progEnd = s.progEnd := rfl
@[simp] theorem State.loadRegs_inputs (x : Reg) : (s.loadRegs x).inputs = s.inputs := rfl
@[simp] theorem State.loadRegs_rnd (x : Reg) : (s.loadRegs x).rnd = s.rnd := rfl
@[simp] theorem State.loadRegs_draws (x : Reg) : (s.loadRegs x).draws = s.draws := rfl
@[simp] theorem State.loadRegs_present (x : Reg) : (s.loadRegs x).present = s.present := rfl
@[simp] theorem State.loadRegs_decodeError (x : Reg) : (s.loadRegs x).decodeError = s.decodeError := rfl
@[simp] theorem State.loadRegs_dePc (x : Reg) : (s.loadRegs x).dePc = s.dePc := rfl
@[simp] theorem State.loadRegs_deOp (x : Reg) : (s.loadRegs x).deOp = s.deOp := rfl

@[simp] theorem State.setIndex_regs (v : Word) : (s.setIndex v).regs = s.regs := rfl
@[simp] theorem State.setIndex_index (v : Word) : (s.setIndex v).index = v := rfl
@[simp] theorem State.setIndex_pc (v : Word) : (s.setIndex v).pc = s.pc := rfl
@[simp] theorem State.setIndex_stack (v : Word) : (s.setIndex v).stack = s.stack := rfl
@[simp] theorem State.setIndex_sp (v : Word) : (s.setIndex v).sp = s.sp := rfl
@[simp] theorem State.setIndex_dt (v : Word) : (s.setIndex v).dt = s.dt := rfl
@[simp] theorem State.setIndex_st (v : Word) : (s.setIndex v).st = s.st := rfl
@[simp] theorem State.setIndex_keys (v : Word) : (s.setIndex v).keys = s.keys := rfl
@[simp] theorem State.setIndex_fb (v : Word) : (s.setIndex v).fb = s.fb := rfl
@[simp] theorem State.setIndex_mem (v : Word) : (s.setIndex v).mem = s.mem := rfl
@[simp] theorem State.setIndex_runState (v : Word) : (s.setIndex v).runState = s.runState := rfl
@[simp] theorem State.setIndex_waitX (v : Word) : (s.setIndex v).waitX = s.waitX := rfl
@[simp] theorem State.setIndex_faultCause (v : Word) : (s.setIndex v).faultCause = s.faultCause := rfl
@[simp] theorem State.setIndex_faultPc (v : Word) : (s.setIndex v).faultPc = s.faultPc := rfl
@[simp] theorem State.setIndex_faultOp (v : Word) : (s.setIndex v).faultOp = s.faultOp := rfl
@[simp] theorem State.setIndex_progEnd (v : Word) : (s.setIndex v).progEnd = s.progEnd := rfl
@[simp] theorem State.setIndex_inputs (v : Word) : (s.setIndex v).inputs = s.inputs := rfl
@[simp] theorem State.setIndex_rnd (v : Word) : (s.setIndex v).rnd = s.rnd := rfl
@[simp] theorem State.setIndex_draws (v : Word) : (s.setIndex v).draws = s.draws := rfl
@[simp] theorem State.setIndex_present (v : Word) : (s.setIndex v).present = s.present := rfl
@[simp] theorem State.setIndex_decodeError (v : Word) : (s.setIndex v).decodeError = s.decodeError := rfl
@[simp] theorem State.setIndex_dePc (v : Word) : (s.setIndex v).dePc = s.dePc := rfl
@[simp] theorem State.setIndex_deOp (v : Word) : (s.setIndex v).deOp = s.deOp := rfl

@[simp] theorem State.setDt_regs (v : Byte) : (s.setDt v).regs = s.regs := rfl
@[simp] theorem State.setDt_index (v : Byte) : (s.setDt v).index = s.index := rfl
@[simp] theorem State.setDt_pc (v : Byte) : (s.setDt v).pc = s.pc := rfl
@[simp] theorem State.setDt_stack (v : Byte) : (s.setDt v).stack = s.stack := rfl
@[simp] theorem State.setDt_sp (v : Byte) : (s.setDt v).sp = s.sp := rfl
@[simp] theorem State.setDt_dt (v : Byte) : (s.setDt v).dt = v := rfl
@[simp] theorem State.setDt_st (v : Byte) : (s.setDt v).st = s.st := rfl
@[simp] theorem State.setDt_keys (v : Byte) : (s.setDt v).keys = s.keys := rfl
@[simp] theorem State.setDt_fb (v : Byte) : (s.setDt v).fb = s.fb := rfl
@[simp] theorem State.setDt_mem (v : Byte) : (s.setDt v).mem = s.mem := rfl
@[simp] theorem State.setDt_runState (v : Byte) : (s.setDt v).runState = s.runState := rfl
@[simp] theorem State.setDt_waitX (v : Byte) : (s.setDt v).waitX = s.waitX := rfl
@[simp] theorem State.setDt_faultCause (v : Byte) : (s.setDt v).faultCause = s.faultCause := rfl
@[simp] theorem State.setDt_faultPc (v : Byte) : (s.setDt v).faultPc = s.faultPc := rfl
@[simp] theorem State.setDt_faultOp (v : Byte) : (s.setDt v).faultOp = s.faultOp := rfl
@[simp] theorem State.setDt_progEnd (v : Byte) : (s.setDt v).progEnd = s.progEnd := rfl
@[simp] theorem State.setDt_inputs (v : Byte) : (s.setDt v).inputs = s.inputs := rfl
@[simp] theorem State.setDt_rnd (v : Byte) : (s.setDt v).rnd = s.rnd := rfl
@[simp] theorem State.setDt_draws (v : Byte) : (s.setDt v).draws = s.draws := rfl
@[simp] theorem State.setDt_present (v : Byte) : (s.setDt v).present = s.present := rfl
@[simp] theorem State.setDt_decodeError (v : Byte) : (s.setDt v).decodeError = s.decodeError := rfl
@[simp] theorem State.setDt_dePc (v : Byte) : (s.setDt v).dePc = s.dePc := rfl
@[simp] theorem State.setDt_deOp (v : Byte) : (s.setDt v).deOp = s.deOp := rfl

@[simp] theorem State.setSt_regs (v : Byte) : (s.setSt v).regs = s.regs := rfl
@[simp] theorem State.setSt_index (v : Byte) : (s.setSt v).index = s.index := rfl
@[simp] theorem State.setSt_pc (v : Byte) : (s.setSt v).pc = s.pc := rfl
@[simp] theorem State.setSt_stack (v : Byte) : (s.setSt v).stack = s.stack := rfl
@[simp] theorem State.setSt_sp (v : Byte) : (s.setSt v).sp = s.sp := rfl
@[simp] theorem State.setSt_dt (v : Byte) : (s.setSt v).dt = s.dt := rfl
@[simp] theorem State.setSt_st (v : Byte) : (s.setSt v).st = v := rfl
@[simp] theorem State.setSt_keys (v : Byte) : (s.setSt v).keys = s.keys := rfl
@[simp] theorem State.setSt_fb (v : Byte) : (s.setSt v).fb = s.fb := rfl
@[simp] theorem State.setSt_mem (v : Byte) : (s.setSt v).mem = s.mem := rfl
@[simp] theorem State.setSt_runState (v : Byte) : (s.setSt v).runState = s.runState := rfl
@[simp] theorem State.setSt_waitX (v : Byte) : (s.setSt v).waitX = s.waitX := rfl
@[simp] theorem State.setSt_faultCause (v : Byte) : (s.setSt v).faultCause = s.faultCause := rfl
@[simp] theorem State.setSt_faultPc (v : Byte) : (s.setSt v).faultPc = s.faultPc := rfl
@[simp] theorem State.setSt_faultOp (v : Byte) : (s.setSt v).faultOp = s.faultOp := rfl
@[simp] theorem State.setSt_progEnd (v : Byte) : (s.setSt v).progEnd = s.progEnd := rfl
@[simp] theorem State.setSt_inputs (v : Byte) : (s.setSt v).inputs = s.inputs := rfl
@[simp] theorem State.setSt_rnd (v : Byte) : (s.setSt v).rnd = s.rnd := rfl
@[simp] theorem State.setSt_draws (v : Byte) : (s.setSt v).draws = s.draws := rfl
@[simp] theorem State.setSt_present (v : Byte) : (s.setSt v).present = s.present := rfl
@[simp] theorem State.setSt_decodeError (v : Byte) : (s.setSt v).decodeError = s.decodeError := rfl
@[simp] theorem State.setSt_dePc (v : Byte) : (s.setSt v).dePc = s.dePc := rfl
@[simp] theorem State.setSt_deOp (v : Byte) : (s.setSt v).deOp = s.deOp := rfl

@[simp] theorem State.setFb_regs (v : Screen) : (s.setFb v).regs = s.regs := rfl
@[simp] theorem State.setFb_index (v : Screen) : (s.setFb v).index = s.index := rfl
@[simp] theorem State.setFb_pc (v : Screen) : (s.setFb v).pc = s.pc := rfl
@[simp] theorem State.setFb_stack (v : Screen) : (s.setFb v).stack = s.stack := rfl
@[simp] theorem State.setFb_sp (v : Screen) : (s.setFb v).sp = s.sp := rfl
@[simp] theorem State.setFb_dt (v : Screen) : (s.setFb v).dt = s.dt := rfl
@[simp] theorem State.setFb_st (v : Screen) : (s.setFb v).st = s.st := rfl
@[simp] theorem State.setFb_keys (v : Screen) : (s.setFb v).keys = s.keys := rfl
@[simp] theorem State.setFb_fb (v : Screen) : (s.setFb v).fb = v := rfl
@[simp] theorem State.setFb_mem (v : Screen) : (s.setFb v).mem = s.mem := rfl
@[simp] theorem State.setFb_runState (v : Screen) : (s.setFb v).runState = s.runState := rfl
@[simp] theorem State.setFb_waitX (v : Screen) : (s.setFb v).waitX = s.waitX := rfl
@[simp] theorem State.setFb_faultCause (v : Screen) : (s.setFb v).faultCause = s.faultCause := rfl
@[simp] theorem State.setFb_faultPc (v : Screen) : (s.setFb v).faultPc = s.faultPc := rfl
@[simp] theorem State.setFb_faultOp (v : Screen) : (s.setFb v).faultOp = s.faultOp := rfl
@[simp] theorem State.setFb_progEnd (v : Screen) : (s.setFb v).progEnd = s.progEnd := rfl
@[simp] theorem State.setFb_inputs (v : Screen) : (s.setFb v).inputs = s.inputs := rfl
@[simp] theorem State.setFb_rnd (v : Screen) : (s.setFb v).rnd = s.rnd := rfl
@[simp] theorem State.setFb_draws (v : Screen) : (s.setFb v).draws = s.draws := rfl
@[simp] theorem State.setFb_present (v : Screen) : (s.setFb v).present = s.present := rfl
@[simp] theorem State.setFb_decodeError (v : Screen) : (s.setFb v).decodeError = s.decodeError := rfl
@[simp] theorem State.setFb_dePc (v : Screen) : (s.setFb v).dePc = s.dePc := rfl
@[simp] theorem State.setFb_deOp (v : Screen) : (s.setFb v).deOp = s.deOp := rfl

@[simp] theorem State.store_regs (a : Nat) (bs : List Byte) : (s.store a bs).regs = s.regs := rfl
@[simp] theorem State.store_index (a : Nat) (bs : List Byte) : (s.store a bs).index = s.index := rfl
@[simp] theorem State.store_pc (a : Nat) (bs : List Byte) : (s.store a bs).pc = s.pc := rfl
@[simp] theorem State.store_stack (a : Nat) (bs : List Byte) : (s.store a bs).stack = s.stack := rfl
@[simp] theorem State.store_sp (a : Nat) (bs : List Byte) : (s.store a bs).sp = s.sp := rfl
@[simp] theorem State.store_dt (a : Nat) (bs : List Byte) : (s.store a bs).dt = s.dt := rfl
@[simp] theorem State.store_st (a : Nat) (bs : List Byte) : (s.store a bs).st = s.st := rfl
@[simp] theorem State.store_keys (a : Nat) (bs : List Byte) : (s.store a bs).keys = s.keys := rfl
@[simp] theorem State.store_fb (a : Nat) (bs : List Byte) : (s.store a bs).fb = s.fb := rfl
@[simp] theorem State.store_mem (a : Nat) (bs : List Byte) : (s.store a bs).mem = s.mem.writeBytes a bs := rfl
@[simp] theorem State.store_runState (a : Nat) (bs : List Byte) : (s.store a bs).runState = s.runState := rfl
@[simp] theorem State.store_waitX (a : Nat) (bs : List Byte) : (s.store a bs).waitX = s.waitX := rfl
@[simp] theorem State.store_faultCause (a : Nat) (bs : List Byte) : (s.store a bs).faultCause = s.faultCause := rfl
@[simp] theorem State.store_faultPc (a : Nat) (bs : List Byte) : (s.store a bs).faultPc = s.faultPc := rfl
@[simp] theorem State.store_faultOp (a : Nat) (bs : List Byte) : (s.store a bs).faultOp = s.faultOp := rfl
@[simp] theorem State.store_progEnd (a : Nat) (bs : List Byte) : (s.store a bs).progEnd = s.progEnd := rfl
@[simp] theorem State.store_inputs (a : Nat) (bs : List Byte) : (s.store a bs).inputs = s.inputs := rfl
@[simp] theorem State.store_rnd (a : Nat) (bs : List Byte) : (s.store a bs).rnd = s.rnd := rfl
@[simp] theorem State.store_draws (a : Nat) (bs : List Byte) : (s.store a bs).draws = s.draws := rfl
@[simp] theorem State.store_present (a : Nat) (bs : List Byte) : (s.store a bs).present = s.present := rfl
@[simp] theorem State.store_decodeError (a : Nat) (bs : List Byte) : (s.store a bs).decodeError = s.decodeError := rfl
@[simp] theorem State.store_dePc (a : Nat) (bs : List Byte) : (s.store a bs).dePc = s.dePc := rfl
@[simp] theorem State.store_deOp (a : Nat) (bs : List Byte) : (s.store a bs).deOp = s.deOp := rfl

@[simp] theorem State.setPc_regs (v : Word) : (s.setPc v).regs = s.regs := rfl
@[simp] theorem State.setPc_index (v : Word) : (s.setPc v).index = s.index := rfl
@[simp] theorem State.setPc_pc (v : Word) : (s.setPc v).pc = v := rfl
@[simp] theorem State.setPc_stack (v : Word) : (s.setPc v).stack = s.stack := rfl
@[simp] theorem State.setPc_sp (v : Word) : (s.setPc v).sp = s.sp := rfl
@[simp] theorem State.setPc_dt (v : Word) : (s.setPc v).dt = s.dt := rfl
@[simp] theorem State.setPc_st (v : Word) : (s.setPc v).st = s.st := rfl
@[simp] theorem State.setPc_keys (v : Word) : (s.setPc v).keys = s.keys := rfl
@[simp] theorem State.setPc_fb (v : Word) : (s.setPc v).fb = s.fb := rfl
@[simp] theorem State.setPc_mem (v : Word) : (s.setPc v).mem = s.mem := rfl
@[simp] theorem State.setPc_runState (v : Word) : (s.setPc v).runState = s.runState := rfl
@[simp] theorem State.setPc_waitX (v : Word) : (s.setPc v).waitX = s.waitX := rfl
@[simp] theorem State.setPc_faultCause (v : Word) : (s.setPc v).faultCause = s.faultCause := rfl
@[simp] theorem State.setPc_faultPc (v : Word) : (s.setPc v).faultPc = s.faultPc := rfl
@[simp] theorem State.setPc_faultOp (v : Word) : (s.setPc v).faultOp = s.faultOp := rfl
@[simp] theorem State.setPc_progEnd (v : Word) : (s.setPc v).progEnd = s.progEnd := rfl
@[simp] theorem State.setPc_inputs (v : Word) : (s.setPc v).inputs = s.inputs := rfl
@[simp] theorem State.setPc_rnd (v : Word) : (s.setPc v).rnd = s.rnd := rfl
@[simp] theorem State.setPc_draws (v : Word) : (s.setPc v).draws = s.draws := rfl
@[simp] theorem State.setPc_present (v : Word) : (s.setPc v).present = s.present := rfl
@[simp] theorem State.setPc_decodeError (v : Word) : (s.setPc v).decodeError = s.decodeError := rfl
@[simp] theorem State.setPc_dePc (v : Word) : (s.setPc v).dePc = s.dePc := rfl
@[simp] theorem State.setPc_deOp (v : Word) : (s.setPc v).deOp = s.deOp := rfl

@[simp] theorem State.advance_regs : (s.advance).regs = s.regs := rfl
@[simp] theorem State.advance_index : (s.advance).index = s.index := rfl
@[simp] theorem State.advance_pc : (s.advance).pc = s.pc + 2 := rfl
@[simp] theorem State.advance_stack : (s.advance).stack = s.stack := rfl
@[simp] theorem State.advance_sp : (s.advance).sp = s.sp := rfl
@[simp] theorem State.advance_dt : (s.advance).dt = s.dt := rfl
@[simp] theorem State.advance_st : (s.advance).st = s.st := rfl
@[simp] theorem State.advance_keys : (s.advance).keys = s.keys := rfl
@[simp] theorem State.advance_fb : (s.advance).fb = s.fb := rfl
@[simp] theorem State.advance_mem : (s.advance).mem = s.mem := rfl
@[simp] theorem State.advance_runState : (s.advance).runState = s.runState := rfl
@[simp] theorem State.advance_waitX : (s.advance).waitX = s.waitX := rfl
@[simp] theorem State.advance_faultCause : (s.advance).faultCause = s.faultCause := rfl
@[simp] theorem State.advance_faultPc : (s.advance).faultPc = s.faultPc := rfl
@[simp] theorem State.advance_faultOp : (s.advance).faultOp = s.faultOp := rfl
@[simp] theorem State.advance_progEnd : (s.advance).progEnd = s.progEnd := rfl
@[simp] theorem State.advance_inputs : (s.advance).inputs = s.inputs := rfl
@[simp] theorem State.advance_rnd : (s.advance).rnd = s.rnd := rfl
@[simp] theorem State.advance_draws : (s.advance).draws = s.draws := rfl
@[simp] theorem State.advance_present : (s.advance).present = s.present := rfl
@[simp] theorem State.advance_decodeError : (s.advance).decodeError = s.decodeError := rfl
@[simp] theorem State.advance_dePc : (s.advance).dePc = s.dePc := rfl
@[simp] theorem State.advance_deOp : (s.advance).deOp = s.deOp := rfl

@[simp] theorem State.skipIf_regs (c : Bool) : (s.skipIf c).regs = s.regs := rfl
@[simp] theorem State.skipIf_index (c : Bool) : (s.skipIf c).index = s.index := rfl
@[simp] theorem State.skipIf_pc (c : Bool) : (s.skipIf c).pc = if c then s.pc + 4 else s.pc + 2 := rfl
@[simp] theorem State.skipIf_stack (c : Bool) : (s.skipIf c).stack = s.stack := rfl
@[simp] theorem State.skipIf_sp (c : Bool) : (s.skipIf c).sp = s.sp := rfl
@[simp] theorem State.skipIf_dt (c : Bool) : (s.skipIf c).dt = s.dt := rfl
@[simp] theorem State.skipIf_st (c : Bool) : (s.skipIf c).st = s.st := rfl
@[simp] theorem State.skipIf_keys (c : Bool) : (s.skipIf c).keys = s.keys := rfl
@[simp] theorem State.skipIf_fb (c : Bool) : (s.skipIf c).fb = s.fb := rfl
@[simp] theorem State.skipIf_mem (c : Bool) : (s.skipIf c).mem = s.mem := rfl
@[simp] theorem State.skipIf_runState (c : Bool) : (s.skipIf c).runState = s.runState := rfl
@[simp] theorem State.skipIf_waitX (c : Bool) : (s.skipIf c).waitX = s.waitX := rfl
@[simp] theorem State.skipIf_faultCause (c : Bool) : (s.skipIf c).faultCause = s.faultCause := rfl
@[simp] theorem State.skipIf_faultPc (c : Bool) : (s.skipIf c).faultPc = s.faultPc := rfl
@[simp] theorem State.skipIf_faultOp (c : Bool) : (s.skipIf c).faultOp = s.faultOp := rfl
@[simp] theorem State.skipIf_progEnd (c : Bool) : (s.skipIf c).progEnd = s.progEnd := rfl
@[simp] theorem State.skipIf_inputs (c : Bool) : (s.skipIf c).inputs = s.inputs := rfl
@[simp] theorem State.skipIf_rnd (c : Bool) : (s.skipIf c).rnd = s.rnd := rfl
@[simp] theorem State.skipIf_draws (c : Bool) : (s.skipIf c).draws = s.draws := rfl
@[simp] theorem State.skipIf_present (c : Bool) : (s.skipIf c).present = s.present := rfl
@[simp] theorem State.skipIf_decodeError (c : Bool) : (s.skipIf c).decodeError = s.decodeError := rfl
@[simp] theorem State.skipIf_dePc (c : Bool) : (s.skipIf c).dePc = s.dePc := rfl
@[simp] theorem State.skipIf_deOp (c : Bool) : (s.skipIf c).deOp = s.deOp := rfl

@[simp] theorem State.push_regs (v : Word) (h : s.sp.val < 16) : (s.push v h).regs = s.regs := rfl
@[simp] theorem State.push_index (v : Word) (h : s.sp.val < 16) : (s.push v h).index = s.index := rfl
@[simp] theorem State.push_pc (v : Word) (h : s.sp.val < 16) : (s.push v h).pc = s.pc := rfl
@[simp] theorem State.push_stack (v : Word) (h : s.sp.val < 16) : (s.push v h).stack = s.stack.set s.sp.val v h := rfl
@[simp] theorem State.push_sp (v : Word) (h : s.sp.val < 16) : (s.push v h).sp = ⟨s.sp.val + 1, Nat.succ_lt_succ h⟩ := rfl
@[simp] theorem State.push_dt (v : Word) (h : s.sp.val < 16) : (s.push v h).dt = s.dt := rfl
@[simp] theorem State.push_st (v : Word) (h : s.sp.val < 16) : (s.push v h).st = s.st := rfl
@[simp] theorem State.push_keys (v : Word) (h : s.sp.val < 16) : (s.push v h).keys = s.keys := rfl
@[simp] theorem State.push_fb (v : Word) (h : s.sp.val < 16) : (s.push v h).fb = s.fb := rfl
@[simp] theorem State.push_mem (v : Word) (h : s.sp.val < 16) : (s.push v h).mem = s.mem := rfl
@[simp] theorem State.push_runState (v : Word) (h : s.sp.val < 16) : (s.push v h).runState = s.runState := rfl
@[simp] theorem State.push_waitX (v : Word) (h : s.sp.val < 16) : (s.push v h).waitX = s.waitX := rfl
@[simp] theorem State.push_faultCause (v : Word) (h : s.sp.val < 16) : (s.push v h).faultCause = s.faultCause := rfl
@[simp] theorem State.push_faultPc (v : Word) (h : s.sp.val < 16) : (s.push v h).faultPc = s.faultPc := rfl
@[simp] theorem State.push_faultOp (v : Word) (h : s.sp.val < 16) : (s.push v h).faultOp = s.faultOp := rfl
@[simp] theorem State.push_progEnd (v : Word) (h : s.sp.val < 16) : (s.push v h).progEnd = s.progEnd := rfl
@[simp] theorem State.push_inputs (v : Word) (h : s.sp.val < 16) : (s.push v h).inputs = s.inputs := rfl
@[simp] theorem State.push_rnd (v : Word) (h : s.sp.val < 16) : (s.push v h).rnd = s.rnd := rfl
@[simp] theorem State.push_draws (v : Word) (h : s.sp.val < 16) : (s.push v h).draws = s.draws := rfl
@[simp] theorem State.push_present (v : Word) (h : s.sp.val < 16) : (s.push v h).present = s.present := rfl
@[simp] theorem State.push_decodeError (v : Word) (h : s.sp.val < 16) : (s.push v h).decodeError = s.decodeError := rfl
@[simp] theorem State.push_dePc (v : Word) (h : s.sp.val < 16) : (s.push v h).dePc = s.dePc := rfl
@[simp] theorem State.push_deOp (v : Word) (h : s.sp.val < 16) : (s.push v h).deOp = s.deOp := rfl

@[simp] theorem State.popped_regs : (s.popped).regs = s.regs := rfl
@[simp] theorem State.popped_index : (s.popped).index = s.index := rfl
@[simp] theorem State.popped_pc : (s.popped).pc = s.pc := rfl
@[simp] theorem State.popped_stack : (s.popped).stack = s.stack := rfl
@[simp] theorem State.popped_sp : (s.popped).sp = ⟨s.sp.val - 1, Nat.lt_of_le_of_lt (Nat.sub_le _ _) s.sp.isLt⟩ := rfl
@[simp] theorem State.popped_dt : (s.popped).dt = s.dt := rfl
@[simp] theorem State.popped_st : (s.popped).st = s.st := rfl
@[simp] theorem State.popped_keys : (s.popped).keys = s.keys := rfl
@[simp] theorem State.popped_fb : (s.popped).fb = s.fb := rfl
@[simp] theorem State.popped_mem : (s.popped).mem = s.mem := rfl
@[simp] theorem State.popped_runState : (s.popped).runState = s.runState := rfl
@[simp] theorem State.popped_waitX : (s.popped).waitX = s.waitX := rfl
@[simp] theorem State.popped_faultCause : (s.popped).faultCause = s.faultCause := rfl
@[simp] theorem State.popped_faultPc : (s.popped).faultPc = s.faultPc := rfl
@[simp] theorem State.popped_faultOp : (s.popped).faultOp = s.faultOp := rfl
@[simp] theorem State.popped_progEnd : (s.popped).progEnd = s.progEnd := rfl
@[simp] theorem State.popped_inputs : (s.popped).inputs = s.inputs := rfl
@[simp] theorem State.popped_rnd : (s.popped).rnd = s.rnd := rfl
@[simp] theorem State.popped_draws : (s.popped).draws = s.draws := rfl
@[simp] theorem State.popped_present : (s.popped).present = s.present := rfl
@[simp] theorem State.popped_decodeError : (s.popped).decodeError = s.decodeError := rfl
@[simp] theorem State.popped_dePc : (s.popped).dePc = s.dePc := rfl
@[simp] theorem State.popped_deOp : (s.popped).deOp = s.deOp := rfl

@[simp] theorem State.takeFault_regs (c : Fault) (op : Word) : (s.takeFault c op).regs = s.regs := rfl
@[simp] theorem State.takeFault_index (c : Fault) (op : Word) : (s.takeFault c op).index = s.index := rfl
@[simp] theorem State.takeFault_pc (c : Fault) (op : Word) : (s.takeFault c op).pc = s.pc := rfl
@[simp] theorem State.takeFault_stack (c : Fault) (op : Word) : (s.takeFault c op).stack = s.stack := rfl
@[simp] theorem State.takeFault_sp (c : Fault) (op : Word) : (s.takeFault c op).sp = s.sp := rfl
@[simp] theorem State.takeFault_dt (c : Fault) (op : Word) : (s.takeFault c op).dt = s.dt := rfl
@[simp] theorem State.takeFault_st (c : Fault) (op : Word) : (s.takeFault c op).st = s.st := rfl
@[simp] theorem State.takeFault_keys (c : Fault) (op : Word) : (s.takeFault c op).keys = s.keys := rfl
@[simp] theorem State.takeFault_fb (c : Fault) (op : Word) : (s.takeFault c op).fb = s.fb := rfl
@[simp] theorem State.takeFault_mem (c : Fault) (op : Word) : (s.takeFault c op).mem = s.mem := rfl
@[simp] theorem State.takeFault_runState (c : Fault) (op : Word) : (s.takeFault c op).runState = .faulted := rfl
@[simp] theorem State.takeFault_waitX (c : Fault) (op : Word) : (s.takeFault c op).waitX = s.waitX := rfl
@[simp] theorem State.takeFault_faultCause (c : Fault) (op : Word) : (s.takeFault c op).faultCause = some c := rfl
@[simp] theorem State.takeFault_faultPc (c : Fault) (op : Word) : (s.takeFault c op).faultPc = s.pc := rfl
@[simp] theorem State.takeFault_faultOp (c : Fault) (op : Word) : (s.takeFault c op).faultOp = op := rfl
@[simp] theorem State.takeFault_progEnd (c : Fault) (op : Word) : (s.takeFault c op).progEnd = s.progEnd := rfl
@[simp] theorem State.takeFault_inputs (c : Fault) (op : Word) : (s.takeFault c op).inputs = s.inputs := rfl
@[simp] theorem State.takeFault_rnd (c : Fault) (op : Word) : (s.takeFault c op).rnd = s.rnd := rfl
@[simp] theorem State.takeFault_draws (c : Fault) (op : Word) : (s.takeFault c op).draws = s.draws := rfl
@[simp] theorem State.takeFault_present (c : Fault) (op : Word) : (s.takeFault c op).present = s.present := rfl
@[simp] theorem State.takeFault_decodeError (c : Fault) (op : Word) : (s.takeFault c op).decodeError = s.decodeError := rfl
@[simp] theorem State.takeFault_dePc (c : Fault) (op : Word) : (s.takeFault c op).dePc = s.dePc := rfl
@[simp] theorem State.takeFault_deOp (c : Fault) (op : Word) : (s.takeFault c op).deOp = s.deOp := rfl

@[simp] theorem State.beginWait_regs (x : Reg) : (s.beginWait x).regs = s.regs := rfl
@[simp] theorem State.beginWait_index (x : Reg) : (s.beginWait x).index = s.index := rfl
@[simp] theorem State.beginWait_pc (x : Reg) : (s.beginWait x).pc = s.pc := rfl
@[simp] theorem State.beginWait_stack (x : Reg) : (s.beginWait x).stack = s.stack := rfl
@[simp] theorem State.beginWait_sp (x : Reg) : (s.beginWait x).sp = s.sp := rfl
@[simp] theorem State.beginWait_dt (x : Reg) : (s.beginWait x).dt = s.dt := rfl
@[simp] theorem State.beginWait_st (x : Reg) : (s.beginWait x).st = s.st := rfl
@[simp] theorem State.beginWait_keys (x : Reg) : (s.beginWait x).keys = s.keys := rfl
@[simp] theorem State.beginWait_fb (x : Reg) : (s.beginWait x).fb = s.fb := rfl
@[simp] theorem State.beginWait_mem (x : Reg) : (s.beginWait x).mem = s.mem := rfl
@[simp] theorem State.beginWait_runState (x : Reg) : (s.beginWait x).runState = .blockedOnKey := rfl
@[simp] theorem State.beginWait_waitX (x : Reg) : (s.beginWait x).waitX = x := rfl
@[simp] theorem State.beginWait_faultCause (x : Reg) : (s.beginWait x).faultCause = s.faultCause := rfl
@[simp] theorem State.beginWait_faultPc (x : Reg) : (s.beginWait x).faultPc = s.faultPc := rfl
@[simp] theorem State.beginWait_faultOp (x : Reg) : (s.beginWait x).faultOp = s.faultOp := rfl
@[simp] theorem State.beginWait_progEnd (x : Reg) : (s.beginWait x).progEnd = s.progEnd := rfl
@[simp] theorem State.beginWait_inputs (x : Reg) : (s.beginWait x).inputs = s.inputs := rfl
@[simp] theorem State.beginWait_rnd (x : Reg) : (s.beginWait x).rnd = s.rnd := rfl
@[simp] theorem State.beginWait_draws (x : Reg) : (s.beginWait x).draws = s.draws := rfl
@[simp] theorem State.beginWait_present (x : Reg) : (s.beginWait x).present = s.present := rfl
@[simp] theorem State.beginWait_decodeError (x : Reg) : (s.beginWait x).decodeError = s.decodeError := rfl
@[simp] theorem State.beginWait_dePc (x : Reg) : (s.beginWait x).dePc = s.dePc := rfl
@[simp] theorem State.beginWait_deOp (x : Reg) : (s.beginWait x).deOp = s.deOp := rfl

@[simp] theorem State.endWait_regs (k : Reg) : (s.endWait k).regs = s.regs.set s.waitX.toNat (k.setWidth 8) s.waitX.isLt := rfl
@[simp] theorem State.endWait_index (k : Reg) : (s.endWait k).index = s.index := rfl
@[simp] theorem State.endWait_pc (k : Reg) : (s.endWait k).pc = s.pc + 2 := rfl
@[simp] theorem State.endWait_stack (k : Reg) : (s.endWait k).stack = s.stack := rfl
@[simp] theorem State.endWait_sp (k : Reg) : (s.endWait k).sp = s.sp := rfl
@[simp] theorem State.endWait_dt (k : Reg) : (s.endWait k).dt = s.dt := rfl
@[simp] theorem State.endWait_st (k : Reg) : (s.endWait k).st = s.st := rfl
@[simp] theorem State.endWait_keys (k : Reg) : (s.endWait k).keys = s.keys := rfl
@[simp] theorem State.endWait_fb (k : Reg) : (s.endWait k).fb = s.fb := rfl
@[simp] theorem State.endWait_mem (k : Reg) : (s.endWait k).mem = s.mem := rfl
@[simp] theorem State.endWait_runState (k : Reg) : (s.endWait k).runState = .running := rfl
@[simp] theorem State.endWait_waitX (k : Reg) : (s.endWait k).waitX = s.waitX := rfl
@[simp] theorem State.endWait_faultCause (k : Reg) : (s.endWait k).faultCause = s.faultCause := rfl
@[simp] theorem State.endWait_faultPc (k : Reg) : (s.endWait k).faultPc = s.faultPc := rfl
@[simp] theorem State.endWait_faultOp (k : Reg) : (s.endWait k).faultOp = s.faultOp := rfl
@[simp] theorem State.endWait_progEnd (k : Reg) : (s.endWait k).progEnd = s.progEnd := rfl
@[simp] theorem State.endWait_inputs (k : Reg) : (s.endWait k).inputs = s.inputs := rfl
@[simp] theorem State.endWait_rnd (k : Reg) : (s.endWait k).rnd = s.rnd := rfl
@[simp] theorem State.endWait_draws (k : Reg) : (s.endWait k).draws = s.draws := rfl
@[simp] theorem State.endWait_present (k : Reg) : (s.endWait k).present = s.present := rfl
@[simp] theorem State.endWait_decodeError (k : Reg) : (s.endWait k).decodeError = s.decodeError := rfl
@[simp] theorem State.endWait_dePc (k : Reg) : (s.endWait k).dePc = s.dePc := rfl
@[simp] theorem State.endWait_deOp (k : Reg) : (s.endWait k).deOp = s.deOp := rfl

@[simp] theorem State.terminate_regs : (s.terminate).regs = s.regs := rfl
@[simp] theorem State.terminate_index : (s.terminate).index = s.index := rfl
@[simp] theorem State.terminate_pc : (s.terminate).pc = s.pc := rfl
@[simp] theorem State.terminate_stack : (s.terminate).stack = s.stack := rfl
@[simp] theorem State.terminate_sp : (s.terminate).sp = s.sp := rfl
@[simp] theorem State.terminate_dt : (s.terminate).dt = s.dt := rfl
@[simp] theorem State.terminate_st : (s.terminate).st = s.st := rfl
@[simp] theorem State.terminate_keys : (s.terminate).keys = s.keys := rfl
@[simp] theorem State.terminate_fb : (s.terminate).fb = s.fb := rfl
@[simp] theorem State.terminate_mem : (s.terminate).mem = s.mem := rfl
@[simp] theorem State.terminate_runState : (s.terminate).runState = .terminated := rfl
@[simp] theorem State.terminate_waitX : (s.terminate).waitX = s.waitX := rfl
@[simp] theorem State.terminate_faultCause : (s.terminate).faultCause = s.faultCause := rfl
@[simp] theorem State.terminate_faultPc : (s.terminate).faultPc = s.faultPc := rfl
@[simp] theorem State.terminate_faultOp : (s.terminate).faultOp = s.faultOp := rfl
@[simp] theorem State.terminate_progEnd : (s.terminate).progEnd = s.progEnd := rfl
@[simp] theorem State.terminate_inputs : (s.terminate).inputs = s.inputs := rfl
@[simp] theorem State.terminate_rnd : (s.terminate).rnd = s.rnd := rfl
@[simp] theorem State.terminate_draws : (s.terminate).draws = s.draws := rfl
@[simp] theorem State.terminate_present : (s.terminate).present = s.present := rfl
@[simp] theorem State.terminate_decodeError : (s.terminate).decodeError = s.decodeError := rfl
@[simp] theorem State.terminate_dePc : (s.terminate).dePc = s.dePc := rfl
@[simp] theorem State.terminate_deOp : (s.terminate).deOp = s.deOp := rfl

@[simp] theorem State.reportDecodeError_regs (op : Word) : (s.reportDecodeError op).regs = s.regs := rfl
@[simp] theorem State.reportDecodeError_index (op : Word) : (s.reportDecodeError op).index = s.index := rfl
@[simp] theorem State.reportDecodeError_pc (op : Word) : (s.reportDecodeError op).pc = s.pc + 2 := rfl
@[simp] theorem State.reportDecodeError_stack (op : Word) : (s.reportDecodeError op).stack = s.stack := rfl
@[simp] theorem State.reportDecodeError_sp (op : Word) : (s.reportDecodeError op).sp = s.sp := rfl
@[simp] theorem State.reportDecodeError_dt (op : Word) : (s.reportDecodeError op).dt = s.dt := rfl
@[simp] theorem State.reportDecodeError_st (op : Word) : (s.reportDecodeError op).st = s.st := rfl
@[simp] theorem State.reportDecodeError_keys (op : Word) : (s.reportDecodeError op).keys = s.keys := rfl
@[simp] theorem State.reportDecodeError_fb (op : Word) : (s.reportDecodeError op).fb = s.fb := rfl
@[simp] theorem State.reportDecodeError_mem (op : Word) : (s.reportDecodeError op).mem = s.mem := rfl
@[simp] theorem State.reportDecodeError_runState (op : Word) : (s.reportDecodeError op).runState = s.runState := rfl
@[simp] theorem State.reportDecodeError_waitX (op : Word) : (s.reportDecodeError op).waitX = s.waitX := rfl
@[simp] theorem State.reportDecodeError_faultCause (op : Word) : (s.reportDecodeError op).faultCause = s.faultCause := rfl
@[simp] theorem State.reportDecodeError_faultPc (op : Word) : (s.reportDecodeError op).faultPc = s.faultPc := rfl
@[simp] theorem State.reportDecodeError_faultOp (op : Word) : (s.reportDecodeError op).faultOp = s.faultOp := rfl
@[simp] theorem State.reportDecodeError_progEnd (op : Word) : (s.reportDecodeError op).progEnd = s.progEnd := rfl
@[simp] theorem State.reportDecodeError_inputs (op : Word) : (s.reportDecodeError op).inputs = s.inputs := rfl
@[simp] theorem State.reportDecodeError_rnd (op : Word) : (s.reportDecodeError op).rnd = s.rnd := rfl
@[simp] theorem State.reportDecodeError_draws (op : Word) : (s.reportDecodeError op).draws = s.draws := rfl
@[simp] theorem State.reportDecodeError_present (op : Word) : (s.reportDecodeError op).present = s.present := rfl
@[simp] theorem State.reportDecodeError_decodeError (op : Word) : (s.reportDecodeError op).decodeError = true := rfl
@[simp] theorem State.reportDecodeError_dePc (op : Word) : (s.reportDecodeError op).dePc = s.pc := rfl
@[simp] theorem State.reportDecodeError_deOp (op : Word) : (s.reportDecodeError op).deOp = op := rfl

@[simp] theorem State.requestFrame_regs : (s.requestFrame).regs = s.regs := rfl
@[simp] theorem State.requestFrame_index : (s.requestFrame).index = s.index := rfl
@[simp] theorem State.requestFrame_pc : (s.requestFrame).pc = s.pc := rfl
@[simp] theorem State.requestFrame_stack : (s.requestFrame).stack = s.stack := rfl
@[simp] theorem State.requestFrame_sp : (s.requestFrame).sp = s.sp := rfl
@[simp] theorem State.requestFrame_dt : (s.requestFrame).dt = s.dt := rfl
@[simp] theorem State.requestFrame_st : (s.requestFrame).st = s.st := rfl
@[simp] theorem State.requestFrame_keys : (s.requestFrame).keys = s.keys := rfl
@[simp] theorem State.requestFrame_fb : (s.requestFrame).fb = s.fb := rfl
@[simp] theorem State.requestFrame_mem : (s.requestFrame).mem = s.mem := rfl
@[simp] theorem State.requestFrame_runState : (s.requestFrame).runState = s.runState := rfl
@[simp] theorem State.requestFrame_waitX : (s.requestFrame).waitX = s.waitX := rfl
@[simp] theorem State.requestFrame_faultCause : (s.requestFrame).faultCause = s.faultCause := rfl
@[simp] theorem State.requestFrame_faultPc : (s.requestFrame).faultPc = s.faultPc := rfl
@[simp] theorem State.requestFrame_faultOp : (s.requestFrame).faultOp = s.faultOp := rfl
@[simp] theorem State.requestFrame_progEnd : (s.requestFrame).progEnd = s.progEnd := rfl
@[simp] theorem State.requestFrame_inputs : (s.requestFrame).inputs = s.inputs := rfl
@[simp] theorem State.requestFrame_rnd : (s.requestFrame).rnd = s.rnd := rfl
@[simp] theorem State.requestFrame_draws : (s.requestFrame).draws = s.draws := rfl
@[simp] theorem State.requestFrame_present : (s.requestFrame).present = true := rfl
@[simp] theorem State.requestFrame_decodeError : (s.requestFrame).decodeError = s.decodeError := rfl
@[simp] theorem State.requestFrame_dePc : (s.requestFrame).dePc = s.dePc := rfl
@[simp] theorem State.requestFrame_deOp : (s.requestFrame).deOp = s.deOp := rfl

@[simp] theorem State.tickTimers_regs : (s.tickTimers).regs = s.regs := rfl
@[simp] theorem State.tickTimers_index : (s.tickTimers).index = s.index := rfl
@[simp] theorem State.tickTimers_pc : (s.tickTimers).pc = s.pc := rfl
@[simp] theorem State.tickTimers_stack : (s.tickTimers).stack = s.stack := rfl
@[simp] theorem State.tickTimers_sp : (s.tickTimers).sp = s.sp := rfl
@[simp] theorem State.tickTimers_dt : (s.tickTimers).dt = timerTick s.dt := rfl
@[simp] theorem State.tickTimers_st : (s.tickTimers).st = timerTick s.st := rfl
@[simp] theorem State.tickTimers_keys : (s.tickTimers).keys = s.keys := rfl
@[simp] theorem State.tickTimers_fb : (s.tickTimers).fb = s.fb := rfl
@[simp] theorem State.tickTimers_mem : (s.tickTimers).mem = s.mem := rfl
@[simp] theorem State.tickTimers_runState : (s.tickTimers).runState = s.runState := rfl
@[simp] theorem State.tickTimers_waitX : (s.tickTimers).waitX = s.waitX := rfl
@[simp] theorem State.tickTimers_faultCause : (s.tickTimers).faultCause = s.faultCause := rfl
@[simp] theorem State.tickTimers_faultPc : (s.tickTimers).faultPc = s.faultPc := rfl
@[simp] theorem State.tickTimers_faultOp : (s.tickTimers).faultOp = s.faultOp := rfl
@[simp] theorem State.tickTimers_progEnd : (s.tickTimers).progEnd = s.progEnd := rfl
@[simp] theorem State.tickTimers_inputs : (s.tickTimers).inputs = s.inputs := rfl
@[simp] theorem State.tickTimers_rnd : (s.tickTimers).rnd = s.rnd := rfl
@[simp] theorem State.tickTimers_draws : (s.tickTimers).draws = s.draws := rfl
@[simp] theorem State.tickTimers_present : (s.tickTimers).present = s.present := rfl
@[simp] theorem State.tickTimers_decodeError : (s.tickTimers).decodeError = s.decodeError := rfl
@[simp] theorem State.tickTimers_dePc : (s.tickTimers).dePc = s.dePc := rfl
@[simp] theorem State.tickTimers_deOp : (s.tickTimers).deOp = s.deOp := rfl

@[simp] theorem State.poll_regs (es : List KeyEvent) : (s.poll es).regs = s.regs := rfl
@[simp] theorem State.poll_index (es : List KeyEvent) : (s.poll es).index = s.index := rfl
@[simp] theorem State.poll_pc (es : List KeyEvent) : (s.poll es).pc = s.pc := rfl
@[simp] theorem State.poll_stack (es : List KeyEvent) : (s.poll es).stack = s.stack := rfl
@[simp] theorem State.poll_sp (es : List KeyEvent) : (s.poll es).sp = s.sp := rfl
@[simp] theorem State.poll_dt (es : List KeyEvent) : (s.poll es).dt = s.dt := rfl
@[simp] theorem State.poll_st (es : List KeyEvent) : (s.poll es).st = s.st := rfl
@[simp] theorem State.poll_keys (es : List KeyEvent) : (s.poll es).keys = es.foldl applyEvent s.keys := rfl
@[simp] theorem State.poll_fb (es : List KeyEvent) : (s.poll es).fb = s.fb := rfl
@[simp] theorem State.poll_mem (es : List KeyEvent) : (s.poll es).mem = s.mem := rfl
@[simp] theorem State.poll_runState (es : List KeyEvent) : (s.poll es).runState = s.runState := rfl
@[simp] theorem State.poll_waitX (es : List KeyEvent) : (s.poll es).waitX = s.waitX := rfl
@[simp] theorem State.poll_faultCause (es : List KeyEvent) : (s.poll es).faultCause = s.faultCause := rfl
@[simp] theorem State.poll_faultPc (es : List KeyEvent) : (s.poll es).faultPc = s.faultPc := rfl
@[simp] theorem State.poll_faultOp (es : List KeyEvent) : (s.poll es).faultOp = s.faultOp := rfl
@[simp] theorem State.poll_progEnd (es : List KeyEvent) : (s.poll es).progEnd = s.progEnd := rfl
@[simp] theorem State.poll_inputs (es : List KeyEvent) : (s.poll es).inputs = s.inputs := rfl
@[simp] theorem State.poll_rnd (es : List KeyEvent) : (s.poll es).rnd = s.rnd := rfl
@[simp] theorem State.poll_draws (es : List KeyEvent) : (s.poll es).draws = s.draws := rfl
@[simp] theorem State.poll_present (es : List KeyEvent) : (s.poll es).present = s.present := rfl
@[simp] theorem State.poll_decodeError (es : List KeyEvent) : (s.poll es).decodeError = s.decodeError := rfl
@[simp] theorem State.poll_dePc (es : List KeyEvent) : (s.poll es).dePc = s.dePc := rfl
@[simp] theorem State.poll_deOp (es : List KeyEvent) : (s.poll es).deOp = s.deOp := rfl

@[simp] theorem State.sample_regs : (s.sample).regs = s.regs := rfl
@[simp] theorem State.sample_index : (s.sample).index = s.index := rfl
@[simp] theorem State.sample_pc : (s.sample).pc = s.pc := rfl
@[simp] theorem State.sample_stack : (s.sample).stack = s.stack := rfl
@[simp] theorem State.sample_sp : (s.sample).sp = s.sp := rfl
@[simp] theorem State.sample_dt : (s.sample).dt = s.dt := rfl
@[simp] theorem State.sample_st : (s.sample).st = s.st := rfl
@[simp] theorem State.sample_keys : (s.sample).keys = s.keys := rfl
@[simp] theorem State.sample_fb : (s.sample).fb = s.fb := rfl
@[simp] theorem State.sample_mem : (s.sample).mem = s.mem := rfl
@[simp] theorem State.sample_runState : (s.sample).runState = s.runState := rfl
@[simp] theorem State.sample_waitX : (s.sample).waitX = s.waitX := rfl
@[simp] theorem State.sample_faultCause : (s.sample).faultCause = s.faultCause := rfl
@[simp] theorem State.sample_faultPc : (s.sample).faultPc = s.faultPc := rfl
@[simp] theorem State.sample_faultOp : (s.sample).faultOp = s.faultOp := rfl
@[simp] theorem State.sample_progEnd : (s.sample).progEnd = s.progEnd := rfl
@[simp] theorem State.sample_inputs : (s.sample).inputs = s.inputs.tail := rfl
@[simp] theorem State.sample_rnd : (s.sample).rnd = s.nextInput.rnd := rfl
@[simp] theorem State.sample_draws : (s.sample).draws = s.draws + 1 := rfl
@[simp] theorem State.sample_present : (s.sample).present = false := rfl
@[simp] theorem State.sample_decodeError : (s.sample).decodeError = false := rfl
@[simp] theorem State.sample_dePc : (s.sample).dePc = s.dePc := rfl
@[simp] theorem State.sample_deOp : (s.sample).deOp = s.deOp := rfl

end Sys2Proof.Machine
end

