-- ==== Sys2Proof/Laws/Registers.lean ====
section
/-! SUPPORT. The laws of the register file, the key state and the call stack: a write is read back, and leaves every
other place alone. -/

namespace Sys2Proof.Machine

/-- Register names are equal when their numbers are. -/
theorem reg_toNat_ne {x r : Reg} (h : r ≠ x) : x.toNat ≠ r.toNat := fun e => h (BitVec.eq_of_toNat_eq e.symm)

/-- Every register reads back the last value written to it (10_state.md R21). -/
theorem State.reg_setReg (s : State) (x r : Reg) (v : Byte) : (s.setReg x v).reg r = if r = x then v else s.reg r := by
  unfold State.reg
  simp only [State.setReg_regs]
  by_cases h : r = x
  · subst h; simp
  · rw [if_neg h]; exact Vector.getElem_set_ne _ _ (reg_toNat_ne h)

@[simp] theorem State.reg_setReg_same (s : State) (x : Reg) (v : Byte) : (s.setReg x v).reg x = v := by
  simp [State.reg_setReg]

theorem State.reg_setReg_ne (s : State) {x r : Reg} (v : Byte) (h : r ≠ x) : (s.setReg x v).reg r = s.reg r := by
  simp [State.reg_setReg, h]

/-- The flag is written last (43_register_alu.md R183). -/
theorem State.reg_setRegFlag (s : State) (x r : Reg) (v : Byte) (c : Bool) :
    (s.setRegFlag x v c).reg r = if r = vf then flagByte c else if r = x then v else s.reg r := by
  simp only [State.setRegFlag, State.reg_setReg]

/-- A block load writes V0 to Vx and no other register (44_index_memory.md R215). -/
theorem State.reg_loadRegs (s : State) (x r : Reg) :
    (s.loadRegs x).reg r = if r.toNat ≤ x.toNat then s.mem.read (s.indexAddr + r.toNat) else s.reg r := by
  simp [State.reg, State.loadRegs]

/-- An update that leaves the register file alone leaves every register alone. -/
theorem State.reg_of_regs {s t : State} (h : t.regs = s.regs) (r : Reg) : t.reg r = s.reg r := by
  unfold State.reg; simp only [h]

@[simp] theorem State.reg_setIndex (s : State) (v : Word) (r : Reg) : (s.setIndex v).reg r = s.reg r := rfl
@[simp] theorem State.reg_setDt (s : State) (v : Byte) (r : Reg) : (s.setDt v).reg r = s.reg r := rfl
@[simp] theorem State.reg_setSt (s : State) (v : Byte) (r : Reg) : (s.setSt v).reg r = s.reg r := rfl
@[simp] theorem State.reg_setFb (s : State) (v : Screen) (r : Reg) : (s.setFb v).reg r = s.reg r := rfl
@[simp] theorem State.reg_store (s : State) (a : Nat) (bs : List Byte) (r : Reg) : (s.store a bs).reg r = s.reg r := rfl
@[simp] theorem State.reg_setPc (s : State) (v : Word) (r : Reg) : (s.setPc v).reg r = s.reg r := rfl
@[simp] theorem State.reg_advance (s : State) (r : Reg) : s.advance.reg r = s.reg r := rfl
@[simp] theorem State.reg_skipIf (s : State) (c : Bool) (r : Reg) : (s.skipIf c).reg r = s.reg r := rfl
@[simp] theorem State.reg_push (s : State) (v : Word) (h : s.sp.val < 16) (r : Reg) : (s.push v h).reg r = s.reg r := rfl
@[simp] theorem State.reg_popped (s : State) (r : Reg) : s.popped.reg r = s.reg r := rfl
@[simp] theorem State.reg_takeFault (s : State) (c : Fault) (op : Word) (r : Reg) : (s.takeFault c op).reg r = s.reg r := rfl
@[simp] theorem State.reg_beginWait (s : State) (x r : Reg) : (s.beginWait x).reg r = s.reg r := rfl
@[simp] theorem State.reg_requestFrame (s : State) (r : Reg) : s.requestFrame.reg r = s.reg r := rfl
@[simp] theorem State.reg_poll (s : State) (es : List KeyEvent) (r : Reg) : (s.poll es).reg r = s.reg r := rfl
@[simp] theorem State.reg_tickTimers (s : State) (r : Reg) : s.tickTimers.reg r = s.reg r := rfl
@[simp] theorem State.reg_sample (s : State) (r : Reg) : s.sample.reg r = s.reg r := rfl
@[simp] theorem State.reg_terminate (s : State) (r : Reg) : s.terminate.reg r = s.reg r := rfl

/-- Ending a wait writes the waiting register (45_keys_timers.md R246). -/
theorem State.reg_endWait (s : State) (k r : Reg) :
    (s.endWait k).reg r = if r = s.waitX then k.setWidth 8 else s.reg r := State.reg_setReg s s.waitX r _

/-- The block Fx55 stores holds register `k` at place `k`, for every `k` up to `x`. -/
theorem State.getD_regBlock (s : State) (x k : Reg) (h : k.toNat ≤ x.toNat) (d : Byte) :
    (s.regBlock x).getD k.toNat d = s.reg k := by
  have hk : k.toNat < 16 := k.isLt
  unfold State.regBlock State.reg
  rw [List.getD_eq_getElem?_getD, List.getElem?_take_of_lt (by omega)]
  simp [hk]

@[simp] theorem State.length_regBlock (s : State) (x : Reg) : (s.regBlock x).length = x.toNat + 1 := by
  have : x.toNat < 16 := x.isLt
  simp only [State.regBlock, List.length_take, Vector.length_toList]
  omega

@[simp] theorem length_bcdDigits (v : Byte) : (bcdDigits v).length = 3 := rfl

/-- The next tick takes the first listed input; past the end of the list its inputs are free (46 R282, R286). -/
theorem State.nextInput_cons (s : State) (inp : TickInput) (rest : List TickInput) (h : s.inputs = inp :: rest) :
    s.nextInput = inp := by
  rw [State.nextInput, h]

theorem State.nextInput_nil (s : State) (h : s.inputs = []) : s.nextInput = Config.freeInput s.draws := by
  rw [State.nextInput, h]

/-- One event sets its own key and no other (46 R276). -/
theorem key_applyEvent (keys : Vector Bool 16) (e : KeyEvent) (k : Reg) :
    (applyEvent keys e)[k.toNat]'k.isLt = if k = e.key then e.kind == .press else keys[k.toNat]'k.isLt := by
  unfold applyEvent
  by_cases h : k = e.key
  · subst h; simp
  · rw [if_neg h]; exact Vector.getElem_set_ne _ _ (reg_toNat_ne h)

/-- The value a register value names as a key code is that number (45_keys_timers.md R240). -/
theorem keyOperand_eq_some {v : Byte} (h : v.toNat ≤ 15) : keyOperand v = some (v.setWidth 4) := by
  simp only [keyOperand, Config.nKeys]; rw [if_pos (by omega)]

theorem keyOperand_eq_none {v : Byte} (h : 15 < v.toNat) : keyOperand v = none := by
  simp only [keyOperand, Config.nKeys]; rw [if_neg (by omega)]

/-- Every address of the access exists (20_memory.md R55). -/
theorem accessOk_iff (a n : Nat) : accessOk a n = true ↔ n = 0 ∨ a + n ≤ 4096 := by simp [accessOk]

/-- `tick(T)` is one down, floored at zero (46 R270). -/
theorem toNat_timerTick (t : Byte) : (timerTick t).toNat = t.toNat - 1 := by
  unfold timerTick
  split
  · bv_omega
  · omega

end Sys2Proof.Machine
end

