-- ==== Sys2Proof/Laws/Exec.lean ====
section
/-! SUPPORT. What each guarded instruction does where its check passes, and what the pieces of a step do, so that a
proof cites an equation instead of unfolding a meaning or the sequencer. -/

namespace Sys2Proof.Machine

theorem exec_ret_pops (s : State) (h : 0 < s.sp.val) :
    exec .ret s = .next (s.popped.setPc (s.stackTop h + 2)) := by
  simp only [exec, execRet, dif_pos h, done]

theorem exec_call_pushes (nnn : BitVec 12) (s : State) (h : s.sp.val < 16) :
    exec (.call nnn) s = .next ((s.push s.pc h).setPc (addrOperand nnn)) := by
  simp only [exec, execCall, dif_pos h, done]

theorem exec_drw_draws (x y : Reg) (n : BitVec 4) (s : State) (h : n = 0 ∨ s.index.toNat + n.toNat ≤ 4096) :
    exec (.drw x y n) s =
      .next (((s.setFb (drawSprite (s.reg x) (s.reg y) (s.mem.readBytes s.indexAddr n.toNat) s.fb).fb).setReg vf
        (flagByte (drawSprite (s.reg x) (s.reg y) (s.mem.readBytes s.indexAddr n.toNat) s.fb).collide)).advance) := by
  have hok : accessOk s.indexAddr n.toNat = true := by
    rw [accessOk_iff]
    exact h.imp (fun e => by rw [e]; rfl) id
  simp only [exec, execDrw, hok, if_true, done]

theorem exec_ldB_stores (x : Reg) (s : State) (h : s.index.toNat + 2 < 4096) :
    exec (.ldB x) s = .next (s.store s.indexAddr (bcdDigits (s.reg x))).advance := by
  have hok : accessOk s.indexAddr 3 = true := (accessOk_iff _ _).mpr (.inr h)
  simp only [exec, execLdB, hok, if_true, done]

theorem exec_stRegs_stores (x : Reg) (s : State) (h : s.index.toNat + x.toNat < 4096) :
    exec (.stRegs x) s = .next (s.store s.indexAddr (s.regBlock x)).advance := by
  have hok : accessOk s.indexAddr (blockSize x) = true := (accessOk_iff _ _).mpr (.inr h)
  simp only [exec, execStRegs, hok, if_true, done]

theorem exec_ldRegs_loads (x : Reg) (s : State) (h : s.index.toNat + x.toNat < 4096) :
    exec (.ldRegs x) s = .next (s.loadRegs x).advance := by
  have hok : accessOk s.indexAddr (blockSize x) = true := (accessOk_iff _ _).mpr (.inr h)
  simp only [exec, execLdRegs, hok, if_true, done]

theorem exec_skp_skips (x : Reg) (s : State) (h : (s.reg x).toNat ≤ 15) :
    exec (.skp x) s = .next (s.skipIf (s.key ((s.reg x).setWidth 4))) := by
  simp only [exec, execSkp, keyOperand_eq_some h, done]

theorem exec_sknp_skips (x : Reg) (s : State) (h : (s.reg x).toNat ≤ 15) :
    exec (.sknp x) s = .next (s.skipIf (!s.key ((s.reg x).setWidth 4))) := by
  simp only [exec, execSknp, keyOperand_eq_some h, done]

/-! ### The step by run state -/

/-- A final state only takes in the tick's inputs (46 R273). -/
theorem step_final (s : State) (h : s.runState = .terminated ∨ s.runState = .faulted) : step s = .next s.sample := by
  unfold step tick
  rcases h with h | h <;> rw [h]

theorem step_blocked (s : State) (h : s.runState = .blockedOnKey) : step s = blockedTick s.nextInput s.sample := by
  unfold step tick
  rw [h]

theorem step_running (s : State) (h : s.runState = .running) : step s = runningTick s.nextInput s.sample := by
  unfold step tick
  rw [h]

/-- A RUNNING tick that is not ended by quit or the termination check executes (46 R274). -/
theorem step_executing (s : State) (hr : s.runState = .running) (hq : s.nextInput.quit = false)
    (hp : s.pc.toNat < s.progEnd.toNat) :
    step s = executeOne ((s.sample.poll s.nextInput.events).tickTimers) := by
  rw [step_running s hr, runningTick, if_neg (by simp [hq]), if_neg (by simpa using hp)]

/-- A RUNNING tick that quit or the end of the program ends (46 R275, R277). -/
theorem step_ending (s : State) (hr : s.runState = .running)
    (h : s.nextInput.quit = true ∨ s.progEnd.toNat ≤ s.pc.toNat) :
    step s = .next (s.sample.poll s.nextInput.events).terminate := by
  rw [step_running s hr, runningTick]
  rcases h with h | h
  · rw [if_pos h]
  · split
    · rfl
    · rw [if_pos (by simpa using h)]

/-- Fetching reads `pc` and memory only. -/
theorem State.fetch_congr {s t : State} (hp : t.pc = s.pc) (hm : t.mem = s.mem) : t.fetch = s.fetch := by
  unfold State.fetch
  rw [hp, hm]

end Sys2Proof.Machine
end

