-- ==== Sys2Proof/Laws/PerInstr.lean ====
section
/-! SUPPORT. Statements made for each instruction. Family FieldsOfWord: the word of an instruction is its row's match
plus each operand at the place of its field (30_encoding.md R72, R80). -/

namespace Sys2Proof.Laws.FieldsOfWord

/-- The word is the `match` of the instruction's own row of the table, plus every field's value at its place. -/
def Statement (i : Instr) : Prop :=
  (encode i).toNat =
    ((opcodeTable[i.row - 1]?).elim 0 fun r => r.value.toNat) + (i.fields.map fun f => f.value * 2 ^ f.lo).sum

/-- The row of an instruction by its number. -/
theorem of_row {i : Instr} (r : OpRow) (hr : opcodeTable[i.row - 1]? = some r)
    (h : (encode i).toNat = r.value.toNat + (i.fields.map fun f => f.value * 2 ^ f.lo).sum) : Statement i := by
  unfold Statement
  rw [hr]
  exact h

theorem cls : Statement .cls := by
  refine of_row ⟨1, "CLS", 0xFFFF#16, 0x00E0#16⟩ rfl ?_
  rfl

theorem ret : Statement .ret := by
  refine of_row ⟨2, "RET", 0xFFFF#16, 0x00EE#16⟩ rfl ?_
  rfl

theorem jp (nnn : BitVec 12) : Statement (.jp nnn) := by
  refine of_row ⟨3, "JP", 0xF000#16, 0x1000#16⟩ rfl ?_
  simp only [encode, toNat_append, Instr.fields, OpField.nnn, List.map_cons, List.map_nil, List.sum_cons, List.sum_nil, BitVec.toNat_ofNat]; omega

theorem call (nnn : BitVec 12) : Statement (.call nnn) := by
  refine of_row ⟨4, "CALL", 0xF000#16, 0x2000#16⟩ rfl ?_
  simp only [encode, toNat_append, Instr.fields, OpField.nnn, List.map_cons, List.map_nil, List.sum_cons, List.sum_nil, BitVec.toNat_ofNat]; omega

theorem seImm (x : Reg) (kk : Byte) : Statement (.seImm x kk) := by
  refine of_row ⟨5, "SE_IMM", 0xF000#16, 0x3000#16⟩ rfl ?_
  simp only [encode, toNat_append, Instr.fields, OpField.x, OpField.kk, List.map_cons, List.map_nil, List.sum_cons, List.sum_nil, BitVec.toNat_ofNat]; omega

theorem sneImm (x : Reg) (kk : Byte) : Statement (.sneImm x kk) := by
  refine of_row ⟨6, "SNE_IMM", 0xF000#16, 0x4000#16⟩ rfl ?_
  simp only [encode, toNat_append, Instr.fields, OpField.x, OpField.kk, List.map_cons, List.map_nil, List.sum_cons, List.sum_nil, BitVec.toNat_ofNat]; omega

theorem seReg (x : Reg) (y : Reg) : Statement (.seReg x y) := by
  refine of_row ⟨7, "SE_REG", 0xF00F#16, 0x5000#16⟩ rfl ?_
  simp only [encode, toNat_append, Instr.fields, OpField.x, OpField.y, List.map_cons, List.map_nil, List.sum_cons, List.sum_nil, BitVec.toNat_ofNat]; omega

theorem sneReg (x : Reg) (y : Reg) : Statement (.sneReg x y) := by
  refine of_row ⟨8, "SNE_REG", 0xF00F#16, 0x9000#16⟩ rfl ?_
  simp only [encode, toNat_append, Instr.fields, OpField.x, OpField.y, List.map_cons, List.map_nil, List.sum_cons, List.sum_nil, BitVec.toNat_ofNat]; omega

theorem ldImm (x : Reg) (kk : Byte) : Statement (.ldImm x kk) := by
  refine of_row ⟨9, "LD_IMM", 0xF000#16, 0x6000#16⟩ rfl ?_
  simp only [encode, toNat_append, Instr.fields, OpField.x, OpField.kk, List.map_cons, List.map_nil, List.sum_cons, List.sum_nil, BitVec.toNat_ofNat]; omega

theorem addImm (x : Reg) (kk : Byte) : Statement (.addImm x kk) := by
  refine of_row ⟨10, "ADD_IMM", 0xF000#16, 0x7000#16⟩ rfl ?_
  simp only [encode, toNat_append, Instr.fields, OpField.x, OpField.kk, List.map_cons, List.map_nil, List.sum_cons, List.sum_nil, BitVec.toNat_ofNat]; omega

theorem ldReg (x : Reg) (y : Reg) : Statement (.ldReg x y) := by
  refine of_row ⟨11, "LD_REG", 0xF00F#16, 0x8000#16⟩ rfl ?_
  simp only [encode, toNat_append, Instr.fields, OpField.x, OpField.y, List.map_cons, List.map_nil, List.sum_cons, List.sum_nil, BitVec.toNat_ofNat]; omega

theorem orReg (x : Reg) (y : Reg) : Statement (.orReg x y) := by
  refine of_row ⟨12, "OR", 0xF00F#16, 0x8001#16⟩ rfl ?_
  simp only [encode, toNat_append, Instr.fields, OpField.x, OpField.y, List.map_cons, List.map_nil, List.sum_cons, List.sum_nil, BitVec.toNat_ofNat]; omega

theorem andReg (x : Reg) (y : Reg) : Statement (.andReg x y) := by
  refine of_row ⟨13, "AND", 0xF00F#16, 0x8002#16⟩ rfl ?_
  simp only [encode, toNat_append, Instr.fields, OpField.x, OpField.y, List.map_cons, List.map_nil, List.sum_cons, List.sum_nil, BitVec.toNat_ofNat]; omega

theorem xorReg (x : Reg) (y : Reg) : Statement (.xorReg x y) := by
  refine of_row ⟨14, "XOR", 0xF00F#16, 0x8003#16⟩ rfl ?_
  simp only [encode, toNat_append, Instr.fields, OpField.x, OpField.y, List.map_cons, List.map_nil, List.sum_cons, List.sum_nil, BitVec.toNat_ofNat]; omega

theorem addReg (x : Reg) (y : Reg) : Statement (.addReg x y) := by
  refine of_row ⟨15, "ADD_REG", 0xF00F#16, 0x8004#16⟩ rfl ?_
  simp only [encode, toNat_append, Instr.fields, OpField.x, OpField.y, List.map_cons, List.map_nil, List.sum_cons, List.sum_nil, BitVec.toNat_ofNat]; omega

theorem sub (x : Reg) (y : Reg) : Statement (.sub x y) := by
  refine of_row ⟨16, "SUB", 0xF00F#16, 0x8005#16⟩ rfl ?_
  simp only [encode, toNat_append, Instr.fields, OpField.x, OpField.y, List.map_cons, List.map_nil, List.sum_cons, List.sum_nil, BitVec.toNat_ofNat]; omega

theorem shr (x : Reg) (y : Reg) : Statement (.shr x y) := by
  refine of_row ⟨17, "SHR", 0xF00F#16, 0x8006#16⟩ rfl ?_
  simp only [encode, toNat_append, Instr.fields, OpField.x, OpField.y, List.map_cons, List.map_nil, List.sum_cons, List.sum_nil, BitVec.toNat_ofNat]; omega

theorem subn (x : Reg) (y : Reg) : Statement (.subn x y) := by
  refine of_row ⟨18, "SUBN", 0xF00F#16, 0x8007#16⟩ rfl ?_
  simp only [encode, toNat_append, Instr.fields, OpField.x, OpField.y, List.map_cons, List.map_nil, List.sum_cons, List.sum_nil, BitVec.toNat_ofNat]; omega

theorem shl (x : Reg) (y : Reg) : Statement (.shl x y) := by
  refine of_row ⟨19, "SHL", 0xF00F#16, 0x800E#16⟩ rfl ?_
  simp only [encode, toNat_append, Instr.fields, OpField.x, OpField.y, List.map_cons, List.map_nil, List.sum_cons, List.sum_nil, BitVec.toNat_ofNat]; omega

theorem ldI (nnn : BitVec 12) : Statement (.ldI nnn) := by
  refine of_row ⟨20, "LD_I", 0xF000#16, 0xA000#16⟩ rfl ?_
  simp only [encode, toNat_append, Instr.fields, OpField.nnn, List.map_cons, List.map_nil, List.sum_cons, List.sum_nil, BitVec.toNat_ofNat]; omega

theorem jpV0 (nnn : BitVec 12) : Statement (.jpV0 nnn) := by
  refine of_row ⟨21, "JP_V0", 0xF000#16, 0xB000#16⟩ rfl ?_
  simp only [encode, toNat_append, Instr.fields, OpField.nnn, List.map_cons, List.map_nil, List.sum_cons, List.sum_nil, BitVec.toNat_ofNat]; omega

theorem rnd (x : Reg) (kk : Byte) : Statement (.rnd x kk) := by
  refine of_row ⟨22, "RND", 0xF000#16, 0xC000#16⟩ rfl ?_
  simp only [encode, toNat_append, Instr.fields, OpField.x, OpField.kk, List.map_cons, List.map_nil, List.sum_cons, List.sum_nil, BitVec.toNat_ofNat]; omega

theorem drw (x : Reg) (y : Reg) (n : BitVec 4) : Statement (.drw x y n) := by
  refine of_row ⟨23, "DRW", 0xF000#16, 0xD000#16⟩ rfl ?_
  simp only [encode, toNat_append, Instr.fields, OpField.x, OpField.y, OpField.n, List.map_cons, List.map_nil, List.sum_cons, List.sum_nil, BitVec.toNat_ofNat]; omega

theorem skp (x : Reg) : Statement (.skp x) := by
  refine of_row ⟨24, "SKP", 0xF0FF#16, 0xE09E#16⟩ rfl ?_
  simp only [encode, toNat_append, Instr.fields, OpField.x, List.map_cons, List.map_nil, List.sum_cons, List.sum_nil, BitVec.toNat_ofNat]; omega

theorem sknp (x : Reg) : Statement (.sknp x) := by
  refine of_row ⟨25, "SKNP", 0xF0FF#16, 0xE0A1#16⟩ rfl ?_
  simp only [encode, toNat_append, Instr.fields, OpField.x, List.map_cons, List.map_nil, List.sum_cons, List.sum_nil, BitVec.toNat_ofNat]; omega

theorem ldVxDt (x : Reg) : Statement (.ldVxDt x) := by
  refine of_row ⟨26, "LD_VX_DT", 0xF0FF#16, 0xF007#16⟩ rfl ?_
  simp only [encode, toNat_append, Instr.fields, OpField.x, List.map_cons, List.map_nil, List.sum_cons, List.sum_nil, BitVec.toNat_ofNat]; omega

theorem ldDtVx (x : Reg) : Statement (.ldDtVx x) := by
  refine of_row ⟨27, "LD_DT_VX", 0xF0FF#16, 0xF015#16⟩ rfl ?_
  simp only [encode, toNat_append, Instr.fields, OpField.x, List.map_cons, List.map_nil, List.sum_cons, List.sum_nil, BitVec.toNat_ofNat]; omega

theorem ldStVx (x : Reg) : Statement (.ldStVx x) := by
  refine of_row ⟨28, "LD_ST_VX", 0xF0FF#16, 0xF018#16⟩ rfl ?_
  simp only [encode, toNat_append, Instr.fields, OpField.x, List.map_cons, List.map_nil, List.sum_cons, List.sum_nil, BitVec.toNat_ofNat]; omega

theorem ldVxK (x : Reg) : Statement (.ldVxK x) := by
  refine of_row ⟨29, "LD_VX_K", 0xF0FF#16, 0xF00A#16⟩ rfl ?_
  simp only [encode, toNat_append, Instr.fields, OpField.x, List.map_cons, List.map_nil, List.sum_cons, List.sum_nil, BitVec.toNat_ofNat]; omega

theorem addI (x : Reg) : Statement (.addI x) := by
  refine of_row ⟨30, "ADD_I", 0xF0FF#16, 0xF01E#16⟩ rfl ?_
  simp only [encode, toNat_append, Instr.fields, OpField.x, List.map_cons, List.map_nil, List.sum_cons, List.sum_nil, BitVec.toNat_ofNat]; omega

theorem ldF (x : Reg) : Statement (.ldF x) := by
  refine of_row ⟨31, "LD_F", 0xF0FF#16, 0xF029#16⟩ rfl ?_
  simp only [encode, toNat_append, Instr.fields, OpField.x, List.map_cons, List.map_nil, List.sum_cons, List.sum_nil, BitVec.toNat_ofNat]; omega

theorem ldB (x : Reg) : Statement (.ldB x) := by
  refine of_row ⟨32, "LD_B", 0xF0FF#16, 0xF033#16⟩ rfl ?_
  simp only [encode, toNat_append, Instr.fields, OpField.x, List.map_cons, List.map_nil, List.sum_cons, List.sum_nil, BitVec.toNat_ofNat]; omega

theorem stRegs (x : Reg) : Statement (.stRegs x) := by
  refine of_row ⟨33, "ST_REGS", 0xF0FF#16, 0xF055#16⟩ rfl ?_
  simp only [encode, toNat_append, Instr.fields, OpField.x, List.map_cons, List.map_nil, List.sum_cons, List.sum_nil, BitVec.toNat_ofNat]; omega

theorem ldRegs (x : Reg) : Statement (.ldRegs x) := by
  refine of_row ⟨34, "LD_REGS", 0xF0FF#16, 0xF065#16⟩ rfl ?_
  simp only [encode, toNat_append, Instr.fields, OpField.x, List.map_cons, List.map_nil, List.sum_cons, List.sum_nil, BitVec.toNat_ofNat]; omega

end Sys2Proof.Laws.FieldsOfWord
end

