-- ==== Sys2Proof/Laws/Step.lean ====
section
/-! SUPPORT. Everything one step can do, said once: the cases of a tick (46_sequencer_and_ports.md R273, R274, R279), and
the first step of a run. -/

namespace Sys2Proof.Machine

/-- The fetch of a tick is decided by the state before it: the poll and the timers touch neither `pc` nor memory. -/
theorem fetch_atExecute (s : State) : s.atExecute.fetch = s.fetch := State.fetch_congr rfl rfl

/-- A tick that reaches its timers goes on to fetch. -/
theorem step_of_reachesTimers {s : State} (h : reachesTimers s) : step s = executeOne s.atExecute :=
  step_executing s h.1 h.2.1 h.2.2

/-- A RUNNING tick either reaches its timers or ends the run. -/
theorem step_of_not_reachesTimers {s : State} (hr : s.runState = .running) (h : ¬ reachesTimers s) :
    step s = .next (s.sample.poll s.nextInput.events).terminate := by
  refine step_ending s hr ?_
  by_cases hq : s.nextInput.quit = true
  · exact .inl hq
  · exact .inr (Nat.le_of_not_lt fun hp => h ⟨hr, by simpa using hq, hp⟩)

/-- Executing a word that decodes. -/
theorem executeOne_of_decode {s : State} {op : Word} {i : Instr} (hf : s.fetch = some op) (hd : decode op = .ok i) :
    executeOne s = finishInstr (exec i s) := by
  simp only [executeOne, hf, hd]

/-- A tick that executes `i`. -/
theorem step_of_executes {s : State} {i : Instr} (h : Executes s i) : step s = finishInstr (exec i s.atExecute) := by
  obtain ⟨hr, op, hf, hd⟩ := h
  rw [step_of_reachesTimers hr, executeOne_of_decode (by rw [fetch_atExecute]; exact hf) hd]

/-- A tick executes at most one instruction. -/
theorem executes_unique {s : State} {i j : Instr} (hi : Executes s i) (hj : Executes s j) : i = j := by
  obtain ⟨_, op, hf, hd⟩ := hi
  obtain ⟨_, op', hf', hd'⟩ := hj
  rw [hf] at hf'; cases hf'
  rw [hd] at hd'; cases hd'
  rfl

/-- What a step that answers `t` did. -/
inductive StepCase (s t : State) : Prop
  | final (h : s.runState = .terminated ∨ s.runState = .faulted) (e : t = s.sample)
  | ended (h : s.runState = .running ∨ s.runState = .blockedOnKey) (hn : ¬ reachesTimers s)
      (e : t = (s.sample.poll s.nextInput.events).terminate)
  | woken (k : Reg) (h : s.runState = .blockedOnKey) (hq : s.nextInput.quit = false)
      (hk : firstPress s.nextInput.events = some k) (e : t = (s.sample.poll s.nextInput.events).endWait k)
  | waiting (h : s.runState = .blockedOnKey) (hq : s.nextInput.quit = false)
      (hk : firstPress s.nextInput.events = none) (e : t = s.sample.poll s.nextInput.events)
  | fetchFault (h : reachesTimers s) (hf : s.fetch = none) (e : t = s.atExecute.takeFault .fetchRange 0)
  | decodeError (op : Word) (h : reachesTimers s) (hf : s.fetch = some op) (hd : ∃ r, decode op = .error r)
      (e : t = (s.atExecute.reportDecodeError op).requestFrame)
  | executed (i : Instr) (u : State) (h : Executes s i) (hx : exec i s.atExecute = .next u)
      (e : t = if u.runState = .faulted then u else u.requestFrame)

/-- The inversion of a step: every way it can answer a next state. -/
theorem step_cases {s t : State} (h : step s = .next t) : StepCase s t := by
  cases hs : s.runState with
  | terminated => rw [step_final s (.inl hs)] at h; cases h; exact .final (.inl hs) rfl
  | faulted => rw [step_final s (.inr hs)] at h; cases h; exact .final (.inr hs) rfl
  | blockedOnKey =>
    rw [step_blocked s hs, blockedTick] at h
    cases hq : s.nextInput.quit with
    | true =>
      rw [if_pos hq] at h; cases h
      exact .ended (.inr hs) (fun hr => by rw [hr.1] at hs; cases hs) rfl
    | false =>
      rw [if_neg (by simp [hq])] at h
      cases hk : firstPress s.nextInput.events with
      | some k => rw [hk] at h; cases h; exact .woken k hs hq hk rfl
      | none => rw [hk] at h; cases h; exact .waiting hs hq hk rfl
  | running =>
    by_cases hr : reachesTimers s
    · rw [step_of_reachesTimers hr] at h
      cases hf : s.fetch with
      | none => simp only [executeOne, fetch_atExecute, hf] at h; cases h; exact .fetchFault hr hf rfl
      | some op =>
        cases hd : decode op with
        | error r =>
          simp only [executeOne, fetch_atExecute, hf, hd] at h; cases h
          exact .decodeError op hr hf ⟨r, hd⟩ rfl
        | ok i =>
          rw [executeOne_of_decode (by rw [fetch_atExecute]; exact hf) hd] at h
          cases hx : exec i s.atExecute with
          | next u =>
            rw [hx] at h
            refine .executed i u ⟨hr, op, hf, hd⟩ hx ?_
            simp only [finishInstr] at h
            split at h
            · next hu => cases h; exact (if_pos hu).symm
            · next hu => cases h; exact (if_neg hu).symm
          | fault r => rw [hx] at h; cases h
          | refused r => rw [hx] at h; cases h
    · rw [step_of_not_reachesTimers hs hr] at h; cases h
      exact .ended (.inl hs) hr rfl

/-- A run of `k + 1` steps is a step, then a run of `k`. -/
theorem run_succ (k : Nat) (s t : State) (h : step s = .next t) : core.run (k + 1) s = core.run k t := by
  rw [Host.Core.run.eq_2 core s k]
  have hs : core.step s = .next t := h
  rw [hs]

end Sys2Proof.Machine
end

