-- ==== Sys2Proof/Machine/Assembler.lean ====
section
/-! DEFINITION. The notation of 30_encoding.md R80 to R82: an instruction in the syntax of its row, and the lines a
listing is made of. No rule of the machine reads it (decision D35, log 33). -/

namespace Sys2Proof.Machine

/-- A hex digit, 0 to F. -/
def hexDigit (d : BitVec 4) : String :=
  (["0", "1", "2", "3", "4", "5", "6", "7", "8", "9", "A", "B", "C", "D", "E", "F"][d.toNat]?).getD ""

/-- A register, `V0` to `VF` (30_encoding.md R81). -/
def asmReg (x : Reg) : String := "V" ++ hexDigit x

/-- `n`, a number 0 to 0xF (30_encoding.md R81). -/
def asmN (n : BitVec 4) : String := "0x" ++ hexDigit n

/-- `kk`, a number 0 to 0xFF (30_encoding.md R81). -/
def asmKK (kk : Byte) : String := "0x" ++ hexDigit (kk.extractLsb' 4 4) ++ hexDigit (kk.extractLsb' 0 4)

/-- `nnn`, a number 0 to 0xFFF (30_encoding.md R81). -/
def asmNNN (a : BitVec 12) : String :=
  "0x" ++ hexDigit (a.extractLsb' 8 4) ++ hexDigit (a.extractLsb' 4 4) ++ hexDigit (a.extractLsb' 0 4)

/-- One mnemonic and two operands. -/
def asmPair (mnemonic first second : String) : String := mnemonic ++ " " ++ first ++ ", " ++ second

/-- An instruction in the column syntax of 30_encoding.md R80; `SHR` and `SHL` in the form with `Vy`. -/
def asmText : Instr → String
  | .cls => "CLS"
  | .ret => "RET"
  | .jp nnn => "JP " ++ asmNNN nnn
  | .call nnn => "CALL " ++ asmNNN nnn
  | .seImm x kk => asmPair "SE" (asmReg x) (asmKK kk)
  | .sneImm x kk => asmPair "SNE" (asmReg x) (asmKK kk)
  | .seReg x y => asmPair "SE" (asmReg x) (asmReg y)
  | .sneReg x y => asmPair "SNE" (asmReg x) (asmReg y)
  | .ldImm x kk => asmPair "LD" (asmReg x) (asmKK kk)
  | .addImm x kk => asmPair "ADD" (asmReg x) (asmKK kk)
  | .ldReg x y => asmPair "LD" (asmReg x) (asmReg y)
  | .orReg x y => asmPair "OR" (asmReg x) (asmReg y)
  | .andReg x y => asmPair "AND" (asmReg x) (asmReg y)
  | .xorReg x y => asmPair "XOR" (asmReg x) (asmReg y)
  | .addReg x y => asmPair "ADD" (asmReg x) (asmReg y)
  | .sub x y => asmPair "SUB" (asmReg x) (asmReg y)
  | .shr x y => asmPair "SHR" (asmReg x) (asmReg y)
  | .subn x y => asmPair "SUBN" (asmReg x) (asmReg y)
  | .shl x y => asmPair "SHL" (asmReg x) (asmReg y)
  | .ldI nnn => asmPair "LD" "I" (asmNNN nnn)
  | .jpV0 nnn => asmPair "JP" "V0" (asmNNN nnn)
  | .rnd x kk => asmPair "RND" (asmReg x) (asmKK kk)
  | .drw x y n => asmPair "DRW" (asmReg x) (asmReg y) ++ ", " ++ asmN n
  | .skp x => "SKP " ++ asmReg x
  | .sknp x => "SKNP " ++ asmReg x
  | .ldVxDt x => asmPair "LD" (asmReg x) "DT"
  | .ldDtVx x => asmPair "LD" "DT" (asmReg x)
  | .ldStVx x => asmPair "LD" "ST" (asmReg x)
  | .ldVxK x => asmPair "LD" (asmReg x) "K"
  | .addI x => asmPair "ADD" "I" (asmReg x)
  | .ldF x => asmPair "LD" "F" (asmReg x)
  | .ldB x => asmPair "LD" "B" (asmReg x)
  | .stRegs x => asmPair "LD" "[I]" (asmReg x)
  | .ldRegs x => asmPair "LD" (asmReg x) "[I]"

/-- What a line of a listing holds: an instruction, a shift written without its `Vy`, or a raw word
(30_encoding.md R81, R82). -/
inductive AsmLine where
  | instr (i : Instr)
  | shrShort (x : Reg)
  | shlShort (x : Reg)
  | dw (w : Word)
deriving DecidableEq, Repr

/-- The word of a line; a shift without `Vy` encodes `y = 0` (30_encoding.md R81). -/
def asmWord : AsmLine → Word
  | .instr i => encode i
  | .shrShort x => encode (.shr x 0)
  | .shlShort x => encode (.shl x 0)
  | .dw w => w

/-- The ROM bytes of a listing, each word high byte first (30_encoding.md R82; decision D1, log 8). -/
def asmRom : List AsmLine → List Byte
  | [] => []
  | l :: ls => (asmWord l).extractLsb' 8 8 :: (asmWord l).extractLsb' 0 8 :: asmRom ls

end Sys2Proof.Machine
end

