-- ==== Sys2Proof/Tests/Slice0.lean ====
section
/-! SUPPORT. Tests. Expected results are the spec's own (30_encoding.md R80, 95_test_vectors.md); a test names its
source. After them, a witness for the hypotheses of each statement that has some. -/

namespace Sys2Proof.Tests

open Sys2Proof Sys2Proof.Machine

/-! ### Decoding: one word of each row, its bits written out from 30_encoding.md R73 and R80 -/

theorem test_decode_cls : decodeTableWord 16 0b0000000011100000 = some .cls := by decide
theorem test_decode_ret : decodeTableWord 16 0b0000000011101110 = some .ret := by decide
theorem test_decode_jp : decodeTableWord 16 0b0001101010111100 = some (.jp 0xABC) := by decide
theorem test_decode_call : decodeTableWord 16 0b0010001100000001 = some (.call 0x301) := by decide
theorem test_decode_seImm : decodeTableWord 16 0b0011001101000010 = some (.seImm 3 0x42) := by decide
theorem test_decode_sneImm : decodeTableWord 16 0b0100001101000010 = some (.sneImm 3 0x42) := by decide
theorem test_decode_seReg : decodeTableWord 16 0b0101000100100000 = some (.seReg 1 2) := by decide
theorem test_decode_sneReg : decodeTableWord 16 0b1001000100100000 = some (.sneReg 1 2) := by decide
theorem test_decode_ldImm : decodeTableWord 16 0b0110101001011100 = some (.ldImm 0xA 0x5C) := by decide
theorem test_decode_addImm : decodeTableWord 16 0b0111111100000001 = some (.addImm 0xF 0x01) := by decide
theorem test_decode_ldReg : decodeTableWord 16 0b1000000100100000 = some (.ldReg 1 2) := by decide
theorem test_decode_orReg : decodeTableWord 16 0b1000000100100001 = some (.orReg 1 2) := by decide
theorem test_decode_andReg : decodeTableWord 16 0b1000000100100010 = some (.andReg 1 2) := by decide
theorem test_decode_xorReg : decodeTableWord 16 0b1000000100100011 = some (.xorReg 1 2) := by decide
theorem test_decode_addReg : decodeTableWord 16 0b1000000100100100 = some (.addReg 1 2) := by decide
theorem test_decode_sub : decodeTableWord 16 0b1000000100100101 = some (.sub 1 2) := by decide
theorem test_decode_shr : decodeTableWord 16 0b1000000100100110 = some (.shr 1 2) := by decide
theorem test_decode_subn : decodeTableWord 16 0b1000000100100111 = some (.subn 1 2) := by decide
theorem test_decode_shl : decodeTableWord 16 0b1000000100101110 = some (.shl 1 2) := by decide
theorem test_decode_ldI : decodeTableWord 16 0b1010000100100011 = some (.ldI 0x123) := by decide
theorem test_decode_jpV0 : decodeTableWord 16 0b1011001100000001 = some (.jpV0 0x301) := by decide
theorem test_decode_rnd : decodeTableWord 16 0b1100001100001111 = some (.rnd 3 0x0F) := by decide
theorem test_decode_drw : decodeTableWord 16 0b1101000100100101 = some (.drw 1 2 5) := by decide
theorem test_decode_skp : decodeTableWord 16 0b1110001110011110 = some (.skp 3) := by decide
theorem test_decode_sknp : decodeTableWord 16 0b1110001110100001 = some (.sknp 3) := by decide
theorem test_decode_ldVxDt : decodeTableWord 16 0b1111001000000111 = some (.ldVxDt 2) := by decide
theorem test_decode_ldDtVx : decodeTableWord 16 0b1111000100010101 = some (.ldDtVx 1) := by decide
theorem test_decode_ldStVx : decodeTableWord 16 0b1111010000011000 = some (.ldStVx 4) := by decide
theorem test_decode_ldVxK : decodeTableWord 16 0b1111001100001010 = some (.ldVxK 3) := by decide
theorem test_decode_addI : decodeTableWord 16 0b1111001000011110 = some (.addI 2) := by decide
theorem test_decode_ldF : decodeTableWord 16 0b1111001000101001 = some (.ldF 2) := by decide
theorem test_decode_ldB : decodeTableWord 16 0b1111001000110011 = some (.ldB 2) := by decide
theorem test_decode_stRegs : decodeTableWord 16 0b1111001001010101 = some (.stRegs 2) := by decide
theorem test_decode_ldRegs : decodeTableWord 16 0b1111001001100101 = some (.ldRegs 2) := by decide

/-- Words of the decode-error space (30_encoding.md R77, R78; 95_test_vectors.md 2.2 #14, #15, #21, 2.3 #26, #27). -/
theorem test_decode_errors :
    [0x0000, 0x0123, 0x5121, 0x9121, 0x8008, 0x800F, 0xE09F, 0xF0FF, 0xFFFF].all
      (fun w => decodeTableWord 16 w == none) = true := by decide

/-- One byte is no opcode (30_encoding.md R70). -/
theorem test_decode_truncated : decodeBytes [0x60] = .error .truncated := rfl

/-! ### Well-formedness: each check refuses an ill-formed term -/

theorem test_field_value_too_large : (OpField.mk 11 8 16).fits = false ∧ (OpField.mk 11 8 15).fits = true := by decide
theorem test_field_outside_word : (OpField.mk 16 8 0).inWord = false ∧ (OpField.mk 3 4 0).inWord = false := by decide
theorem test_field_ill_formed : (OpField.mk 7 0 256).wellFormed = false ∧ (OpField.mk 12 17 0).wellFormed = false := by
  decide
theorem test_instr_well_formed : (Instr.drw 15 15 15).wellFormed = true := by decide
theorem test_rom_too_long : romWellFormed (List.replicate 3585 0) = false ∧ romWellFormed (List.replicate 3584 0) = true := by
  refine ⟨?_, ?_⟩ <;> rw [romWellFormed, List.length_replicate] <;> decide

/-! ### One instruction: the vectors of 95_test_vectors.md sections 2.1 to 2.4 and 2.6 -/

/-- A state in which all of memory is program, and the next tick has no event and no quit. -/
def base : State := { State.reset with progEnd := 0x1000, inputs := [⟨[], false, 0⟩] }

/-- What holds of the state after an instruction. -/
def after (i : Instr) (s : State) (p : State → Bool) : Bool :=
  match exec i s with
  | .next t => p t
  | _ => false

/-- What holds of the state after a tick. -/
def ticked (s : State) (p : State → Bool) : Bool :=
  match step s with
  | .next t => p t
  | _ => false

/-- The fault record of the vectors. -/
def faultedWith (c : Fault) (op : Word) (t : State) : Bool :=
  t.runState == .faulted && t.faultCause == some c && t.faultPc == 0x200 && t.faultOp == op && t.pc == 0x200

/-- 2.1 #1. -/
theorem test_cls : after .cls (({ base with fb := 1 <<< 2047 ||| 32 } : State).setReg 15 7)
    (fun t => t.fb == 0 && t.reg 15 == 7 && t.pc == 0x202) = true := by decide +kernel

/-- 2.1 #4: row 0 at (0..3, 31), the other rows skipped. -/
theorem test_drw_bottom : after (.drw 0 1 5) (base.setReg 1 31)
    (fun t => t.fb == (15 : Screen) <<< 1984 && t.reg 15 == 0 && t.pc == 0x202) = true := by decide +kernel

/-- 2.1 #10, with the bleed of #3 into the next row: 62, 63, 64, 65. -/
theorem test_drw_collides : after (.drw 0 1 1) (({ base with fb := (1 : Screen) <<< 64 } : State).setReg 0 62)
    (fun t => t.fb == (3 : Screen) <<< 62 ||| (1 : Screen) <<< 65 && t.reg 15 == 1) = true := by decide +kernel

/-- 2.2 #3. -/
theorem test_call : after (.call 0x300) base
    (fun t => t.stack[0]? == some 0x200 && t.sp.val == 1 && t.pc == 0x300) = true := by decide

/-- 2.2 #6. -/
theorem test_call_full : after (.call 0x200) { base with sp := 16 } (faultedWith .stackOverflow 0x2200) = true := by decide

/-- 2.2 #4. -/
theorem test_ret : after .ret { base with pc := 0x300, sp := 1, stack := base.stack.set 0 0x200 }
    (fun t => t.pc == 0x202 && t.sp.val == 0 && t.stack[0]? == some 0x200) = true := by decide

/-- 2.2 #5. -/
theorem test_ret_empty : after .ret base (faultedWith .stackUnderflow 0x00EE) = true := by decide

/-- 2.2 #1. -/
theorem test_jp : after (.jp 0xABC) base (fun t => t.pc == 0xABC) = true := by decide

/-- 2.2 #7, #8. -/
theorem test_seImm : after (.seImm 3 0x42) (base.setReg 3 0x42) (fun t => t.pc == 0x204) = true ∧
    after (.seImm 3 0x42) (base.setReg 3 0x41) (fun t => t.pc == 0x202) = true := by decide

/-- 2.2 #9, #10. -/
theorem test_sneImm : after (.sneImm 3 0x42) (base.setReg 3 0x41) (fun t => t.pc == 0x204) = true ∧
    after (.sneImm 3 0x42) (base.setReg 3 0x42) (fun t => t.pc == 0x202) = true := by decide

/-- 2.2 #11, #12. -/
theorem test_seReg : after (.seReg 1 2) ((base.setReg 1 7).setReg 2 7) (fun t => t.pc == 0x204) = true ∧
    after (.seReg 1 2) ((base.setReg 1 7).setReg 2 8) (fun t => t.pc == 0x202) = true := by decide

/-- 2.2 #13. -/
theorem test_sneReg : after (.sneReg 1 2) ((base.setReg 1 7).setReg 2 8) (fun t => t.pc == 0x204) = true := by decide

/-- 2.2 #18. -/
theorem test_jpV0 : after (.jpV0 0xFFF) (base.setReg 0 0xFF) (fun t => t.pc == 0x10FE) = true := by decide

/-- 2.3 #1. -/
theorem test_ldImm : after (.ldImm 0xA 0x5C) base (fun t => t.reg 0xA == 0x5C && t.pc == 0x202) = true := by decide

/-- 2.3 #2. -/
theorem test_addImm : after (.addImm 0 2) ((base.setReg 0 0xFF).setReg 15 0x55)
    (fun t => t.reg 0 == 1 && t.reg 15 == 0x55) = true := by decide

/-- 2.3 #4. -/
theorem test_ldReg : after (.ldReg 0 1) (base.setReg 1 0x9A) (fun t => t.reg 0 == 0x9A) = true := by decide

/-- 2.3 #5 to #7. -/
theorem test_logic :
    after (.orReg 0 1) ((base.setReg 0 0x0C).setReg 1 0x0A) (fun t => t.reg 0 == 0x0E) = true ∧
    after (.andReg 0 1) ((base.setReg 0 0x0C).setReg 1 0x0A) (fun t => t.reg 0 == 0x08) = true ∧
    after (.xorReg 0 1) ((base.setReg 0 0x0C).setReg 1 0x0A) (fun t => t.reg 0 == 0x06) = true := by decide

/-- 2.3 #10, and #12: the flag is written last. -/
theorem test_addReg :
    after (.addReg 0 1) ((base.setReg 0 0xFF).setReg 1 1) (fun t => t.reg 0 == 0 && t.reg 15 == 1) = true ∧
    after (.addReg 15 1) ((base.setReg 15 0x80).setReg 1 0x80) (fun t => t.reg 15 == 1) = true := by decide

/-- 2.3 #14, #15. -/
theorem test_sub :
    after (.sub 1 2) ((base.setReg 1 5).setReg 2 6) (fun t => t.reg 1 == 0xFF && t.reg 15 == 0) = true ∧
    after (.sub 0 1) ((base.setReg 0 7).setReg 1 7) (fun t => t.reg 0 == 0 && t.reg 15 == 1) = true := by decide

/-- 2.3 #18, #19. -/
theorem test_shr :
    after (.shr 0 0) (base.setReg 0 5) (fun t => t.reg 0 == 2 && t.reg 15 == 1) = true ∧
    after (.shr 0 1) ((base.setReg 0 0x80).setReg 1 3) (fun t => t.reg 0 == 0x40 && t.reg 15 == 0) = true := by decide

/-- 2.3 #21, #22. -/
theorem test_subn :
    after (.subn 0 1) ((base.setReg 0 3).setReg 1 5) (fun t => t.reg 0 == 2 && t.reg 15 == 1) = true ∧
    after (.subn 0 1) ((base.setReg 0 2).setReg 1 1) (fun t => t.reg 0 == 0xFF && t.reg 15 == 0) = true := by decide

/-- 2.3 #23, #25. -/
theorem test_shl :
    after (.shl 0 0) (base.setReg 0 0x81) (fun t => t.reg 0 == 2 && t.reg 15 == 1) = true ∧
    after (.shl 0 0) (base.setReg 0 0x40) (fun t => t.reg 0 == 0x80 && t.reg 15 == 0) = true := by decide

/-- 2.3 #28. -/
theorem test_rnd : after (.rnd 3 0x0F) { base with rnd := 0xA7 } (fun t => t.reg 3 == 7) = true := by decide

/-- 2.4 #1. -/
theorem test_ldI : after (.ldI 0x123) base (fun t => t.index == 0x123 && t.pc == 0x202) = true := by decide

/-- 2.4 #3. -/
theorem test_addI : after (.addI 0) ((base.setReg 0 1).setIndex 0xFFFF) (fun t => t.index == 0 && t.reg 15 == 0) = true := by
  decide

/-- 2.4 #6. -/
theorem test_ldF : after (.ldF 0) (base.setReg 0 0xFF) (fun t => t.index == 0x4FB) = true := by decide

/-- 2.4 #7, #12. -/
theorem test_ldB :
    after (.ldB 2) ((base.setReg 2 156).setIndex 0x300)
      (fun t => t.mem.readBytes 0x300 3 == [1, 5, 6] && t.pc == 0x202) = true ∧
    after (.ldB 0) ((base.setReg 0 9).setIndex 0xFFE) (fun t => faultedWith .memRange 0xF033 t && t.mem == []) = true := by
  decide

/-- 2.4 #14, #15. -/
theorem test_stRegs :
    after (.stRegs 15) ((base.setReg 15 0xEE).setIndex 0xFF0) (fun t => t.mem.read 0xFFF == 0xEE && t.index == 0xFF0) = true ∧
    after (.stRegs 15) (base.setIndex 0xFF1) (faultedWith .memRange 0xFF55) = true := by decide

/-- 2.4 #16, #18. -/
theorem test_ldRegs : after (.ldRegs 0) base (fun t => t.reg 0 == 0xF0 && t.reg 1 == 0) = true ∧
    after (.ldRegs 1) (base.setIndex 0xFFF) (faultedWith .memRange 0xF165) = true := by decide

/-- 2.6 #1, #5. -/
theorem test_skp : after (.skp 0) (({ base with keys := base.keys.set 5 true } : State).setReg 0 5) (fun t => t.pc == 0x204) = true ∧
    after (.skp 0) (base.setReg 0 0x10) (faultedWith .keyRange 0xE09E) = true := by decide

/-- 2.6 #3, #4. -/
theorem test_sknp : after (.sknp 0) (base.setReg 0 5) (fun t => t.pc == 0x204) = true ∧
    after (.sknp 0) (({ base with keys := base.keys.set 5 true } : State).setReg 0 5) (fun t => t.pc == 0x202) = true := by decide

/-- 2.6 #6 to #8. -/
theorem test_timers : after (.ldVxDt 0) { base with dt := 9 } (fun t => t.reg 0 == 9) = true ∧
    after (.ldDtVx 0) (base.setReg 0 9) (fun t => t.dt == 9) = true ∧
    after (.ldStVx 0) (base.setReg 0 1) (fun t => t.st == 1 && t.outputs.soundActive) = true := by decide

/-! ### One tick: the vectors of sections 2.5 and 2.6 -/

/-- No event, no quit, `rnd = 0`. -/
def quiet : TickInput := ⟨[], false, 0⟩

/-- A press and a release. -/
def press (k : Reg) : KeyEvent := ⟨.press, k⟩
def release (k : Reg) : KeyEvent := ⟨.release, k⟩

/-- `base` with a word at `0x200`, and the inputs of the next tick. -/
def holding (op : Word) (inp : TickInput := quiet) : State := { base.placeWord op with inputs := [inp] }

/-- 2.5 #1. -/
theorem test_tick_empty : ticked { State.reset with inputs := [quiet] } (fun t => t.runState == .terminated && !t.present) = true := by decide

/-- 2.5 #3: quit, before the timers and the instruction. -/
theorem test_tick_quit : ticked { holding 0x6001 ⟨[], true, 0⟩ with dt := 5 }
    (fun t => t.runState == .terminated && t.dt == 5 && t.reg 0 == 0 && !t.present) = true := by decide

/-- 2.5 #4: the decrement of the tick that faults stands. -/
theorem test_tick_fault : ticked { holding 0x00EE with dt := 5 }
    (fun t => faultedWith .stackUnderflow 0x00EE t && t.dt == 4 && !t.present) = true := by decide

/-- S2: a decode error is reported and skipped. -/
theorem test_tick_decode_error : ticked (holding 0xFFFF)
    (fun t => t.pc == 0x202 && t.decodeError && t.dePc == 0x200 && t.deOp == 0xFFFF && t.runState == .running && t.present) = true := by
  decide

/-- 2.5 #6: the last event wins. -/
theorem test_tick_events : ticked (holding 0x6001 ⟨[press 3, release 3], false, 0⟩) (fun t => !t.key 3 && t.reg 0 == 1) = true := by
  decide

/-- 2.5 #7 and 2.2 #19: the ends of the fetch range. -/
theorem test_tick_fetch_range :
    ticked { base with pc := 0xFFF } (fun t => t.faultCause == some .fetchRange && t.faultPc == 0xFFF && t.faultOp == 0) = true ∧
    ticked { base with pc := 0x100 } (fun t => t.faultCause == some .fetchRange && t.faultPc == 0x100) = true := by decide

/-- 2.6 #11: a press of the tick that executes Fx0A does not end the wait. -/
theorem test_tick_wait_begins : ticked (holding 0xF00A ⟨[press 3], false, 0⟩)
    (fun t => t.runState == .blockedOnKey && t.waitX == 0 && t.pc == 0x200 && t.present && t.key 3) = true := by decide

/-- 2.6 #13: the first press ends it. -/
theorem test_tick_wait_ends :
    ticked { holding 0xF00A ⟨[press 9, press 4], false, 0⟩ with runState := .blockedOnKey, dt := 3 }
      (fun t => t.reg 0 == 9 && t.key 9 && t.key 4 && t.pc == 0x202 && t.runState == .running && !t.present && t.dt == 3) = true := by
  decide

/-- From reset, a placed word is the one the next step runs (70 R330; log 6). -/
theorem test_withFetchWord : ticked (State.reset.withFetchWord 16 0x6A5C) (fun t => t.reg 0xA == 0x5C && t.pc == 0x202) = true := by
  decide

/-- Lines of P2 and P3 and a shift without `Vy`, as listed (section 3, 30_encoding.md R81, R82). -/
theorem test_asmRom : asmRom [.instr (.ldImm 0xA 0), .instr (.call 0x210), .dw 0x0000, .instr (.ldB 2), .shrShort 1] =
    [0x6A, 0x00, 0x22, 0x10, 0x00, 0x00, 0xF2, 0x33, 0x81, 0x06] := by decide

/-- The same lines in the syntax of the table (30_encoding.md R80, R81). -/
theorem test_asmText : asmText (.ldImm 0xA 0) = "LD VA, 0x00" ∧ asmText (.call 0x210) = "CALL 0x210" ∧
    asmText (.ldRegs 2) = "LD V2, [I]" := by decide +kernel

/-! ### Witnesses: states that meet the hypotheses of the statements -/

/-- The words of the rows of the display statements. -/
theorem witness_ClearTurnsEveryCellOff : (0x00E0 : Word) &&& 0xFFFF = 0x00E0 := by decide

/-- A draw that ends at the last byte, a draw of no row at any `I`, and a lit pixel at each side of the last cell. -/
theorem witness_DrawTogglesTheDrawnCells :
    (0xDABF : Word) &&& 0xF000 = 0xD000 ∧ (base.setIndex 4081).index.toNat + (15 : BitVec 4).toNat ≤ 4096 ∧
    ((0 : BitVec 4) = 0 ∧ (base.setIndex 0xFFFF).index.toNat = 0xFFFF) ∧
    Lit ((base.setReg 0 63).setReg 1 31) 0 1 1 2047 ∧ Lit ((base.setReg 0 63).setReg 1 31) 0 1 1 2048 :=
  ⟨by decide, by decide, by decide, ⟨0, 0, by decide⟩, ⟨0, 1, by decide⟩⟩

/-- The two clauses: a lit cell that was on, and a display with none on. -/
theorem witness_CollisionFlagIsExact :
    (∃ j < 2048, Lit base 0 1 1 j ∧ ({ base with fb := 1 } : State).fb.cell j = true) ∧
    (¬ ∃ j < 2048, Lit base 0 1 0 j ∧ base.fb.cell j = true) ∧ (0 : Reg) ≠ vf :=
  ⟨⟨0, by decide, ⟨0, 0, by decide⟩, by decide +kernel⟩, fun ⟨_, _, ⟨r, _, hr, _⟩, _⟩ => absurd hr (Nat.not_lt_zero r), by decide⟩

theorem witness_DrawTwiceRestoresTheDisplay :
    ∃ t, exec (.drw 0 1 5) base = .next t ∧ t.reg 0 = base.reg 0 ∧ t.reg 1 = base.reg 1 := ⟨_, rfl, by decide, by decide⟩

/-- With `x = y = F` the coordinates stay when the collision bit repeats VF. -/
theorem witness_DrawTwiceRestoresTheDisplay_vf :
    ∃ t, exec (.drw 15 15 5) base = .next t ∧ t.reg 15 = base.reg 15 := ⟨_, rfl, by decide +kernel⟩

theorem witness_ClearThenDrawShowsTheSprite :
    ∃ t, exec .cls { base with fb := 5 } = .next t ∧ (5 : BitVec 4) ≠ 0 ∧ base.index.toNat + (5 : BitVec 4).toNat ≤ 4096 :=
  ⟨_, rfl, by decide, by decide⟩

/-- A state that executes a word executes its instruction. -/
theorem executes_of {s : State} {op : Word} {i : Instr} (hr : s.runState = .running) (hq : s.nextInput.quit = false)
    (hp : s.pc.toNat < s.progEnd.toNat) (hf : s.fetch = some op) (hd : decode op = .ok i) : Executes s i :=
  ⟨⟨hr, hq, hp⟩, op, hf, hd⟩

theorem witness_OnlyClearAndDrawChangeTheDisplay :
    (∃ t, step { holding 0x00E0 with fb := 1 } = .next t ∧ t.fb ≠ 1) ∧ Executes { holding 0x00E0 with fb := 1 } .cls :=
  ⟨⟨_, rfl, by decide +kernel⟩, executes_of (op := 0x00E0) rfl rfl (by decide) (by decide) rfl⟩

theorem witness_JumpSetsPc :
    (0x1ABC : Word) &&& 0xF000 = 0x1000 ∧ Executes (holding 0x1200) (.jp 0x200) ∧
    (0x200 : BitVec 12).toNat = (holding 0x1200).pc.toNat ∧
    ∃ t, step { holding 0x1200 with inputs := [quiet, quiet] } = .next t ∧ t.nextInput.quit = false :=
  ⟨by decide, executes_of (op := 0x1200) rfl rfl (by decide) (by decide) rfl, by decide, _, rfl, by decide⟩

theorem witness_ImmediateSkips : (0x3342 : Word) &&& 0xF000 = 0x3000 ∧ (0x4342 : Word) &&& 0xF000 = 0x4000 ∧
    (base.setReg 3 0x42).reg 3 = 0x42 ∧ (base.setReg 3 0x41).reg 3 ≠ 0x42 := by decide

theorem witness_RegisterSkips : (0x5120 : Word) &&& 0xF00F = 0x5000 ∧ (0x9120 : Word) &&& 0xF00F = 0x9000 ∧
    (base.setReg 1 7).reg 1 ≠ (base.setReg 1 7).reg 2 ∧ base.reg 1 = base.reg 2 := by decide

theorem witness_JumpThroughV0 : (0xBFFF : Word) &&& 0xF000 = 0xB000 := by decide

/-- The empty stack and the last free place. -/
theorem witness_CallPushesItsAddress : (0x2300 : Word) &&& 0xF000 = 0x2000 ∧ base.sp.val < 16 ∧
    ({ base with sp := 15 } : State).sp.val < 16 := by decide

/-- One entry, and a full stack. -/
theorem witness_ReturnPopsPastTheCall : (0x00EE : Word) &&& 0xFFFF = 0x00EE ∧
    0 < ({ base with sp := 1 } : State).sp.val ∧ base.stack[1 - 1]? = some 0 ∧
    0 < ({ base with sp := 16 } : State).sp.val ∧ base.stack[16 - 1]? = some 0 := by decide

/-- A subroutine that made and returned from a nested call: the entry at SP is stale. -/
theorem witness_ReturnResumesAfterTheCall :
    ∃ t u : State, exec (.call 0x300) { base with sp := 14 } = .next t ∧ u.sp = t.sp ∧
      (∀ j < t.sp.val, u.stack[j]? = t.stack[j]?) ∧ u.stack[15]? ≠ t.stack[15]? :=
  ⟨_, { base with sp := 15, stack := (base.stack.set 14 0x200).set 15 0x308, pc := 0x310 }, rfl, rfl, by decide, by decide⟩

/-- No fault at the edge of each condition. -/
theorem witness_NextPcFollowsTheTable : raises (.call 0x300) { base with sp := 15 } = none ∧
    raises .ret { base with sp := 1 } = none ∧ raises (.drw 0 1 15) (base.setIndex 4081) = none ∧
    raises (.drw 0 1 0) (base.setIndex 0xFFFF) = none ∧ raises (.ldB 0) (base.setIndex 4093) = none ∧
    raises (.stRegs 15) (base.setIndex 4080) = none ∧ raises (.ldRegs 0) (base.setIndex 4095) = none ∧
    raises (.skp 0) (base.setReg 0 15) = none ∧ raises (.sknp 0) (base.setReg 0 15) = none ∧ raises .cls base = none := by
  decide

theorem witness_LoadsIntoARegister : (0x6FAA : Word) &&& 0xF000 = 0x6000 ∧ (0x8120 : Word) &&& 0xF00F = 0x8000 := by decide

/-- The destination other than VF, in 8xy4 to 8xyE, and VF as no operand. -/
theorem witness_FlagIgnoresOldVF : (14 : Reg) ≠ vf ∧ (0 : Reg) ≠ vf := by decide

theorem witness_OnlyRandomReadsTheRandomByte : ∀ x kk, Instr.ldRegs 15 ≠ .rnd x kk := fun _ _ h => by cases h

/-- V2 in 8xy6 with `y = 2`, and V4 in Fx55 and Fx65 with `x = 3`. -/
theorem witness_UnusedRegistersDoNotMatter :
    (readsReg 2 (.shr 1 2) = false ∧ writesReg 2 (.shr 1 2) = false) ∧
    (readsReg 4 (.stRegs 3) = false ∧ writesReg 4 (.stRegs 3) = false) ∧
    (readsReg 4 (.ldRegs 3) = false ∧ writesReg 4 (.ldRegs 3) = false) := by decide

theorem witness_IndexLoads : (0xA300 : Word) &&& 0xF000 = 0xA000 ∧ (0xFF29 : Word) &&& 0xF0FF = 0xF029 := by decide

theorem witness_DecimalDigitsAreStored : (base.setIndex 4093).index.toNat + 2 < 4096 := by decide

theorem witness_RegisterBlockIsStored : (base.setIndex 4080).index.toNat + (15 : Reg).toNat < 4096 := by decide

theorem witness_RegisterBlockIsLoaded : (base.setIndex 4095).index.toNat + (0 : Reg).toNat < 4096 := by decide

theorem witness_StoredBlockLoadsBack :
    ∃ t u : State, exec (.stRegs 1) ((base.setReg 1 7).setIndex 0x400) = .next t ∧ u.mem = t.mem ∧ u.index = t.index ∧
      u.reg 1 = 0 :=
  ⟨_, ({ base with mem := [(0x401, 7)] } : State).setIndex 0x400, rfl, by decide, rfl, by decide⟩

theorem witness_StoredOpcodeIsFetched :
    ∃ t u : State, exec (.stRegs 1) ((base.setReg 1 0xE0).setIndex 0x400) = .next t ∧ u.mem = t.mem ∧
      u.pc.toNat = 0x400 + (0 : Reg).toNat ∧ (0 : Reg).toNat + 1 ≤ (1 : Reg).toNat :=
  ⟨_, { base with mem := [(0x401, 0xE0)], pc := 0x400 }, rfl, by decide, by decide, by decide⟩

/-- The last key, pressed and released. -/
theorem witness_KeySkips : ((base.setReg 3 15).reg 3).toNat = (15 : Reg).toNat ∧
    ({ base with keys := base.keys.set 15 true } : State).key 15 = true ∧ base.key 15 = false := by decide

theorem witness_TimerInstructions :
    (0xF207 : Word) &&& 0xF0FF = 0xF007 ∧ (0xF115 : Word) &&& 0xF0FF = 0xF015 ∧ (0xF418 : Word) &&& 0xF0FF = 0xF018 ∧
    (∃ t, step (holding 0xF207) = .next t) ∧ Executes (holding 0xF207) (.ldVxDt 2) ∧
    Executes (holding 0xF115) (.ldDtVx 1) ∧ Executes (holding 0xF418) (.ldStVx 4) :=
  ⟨by decide, by decide, by decide, ⟨_, rfl⟩, executes_of (op := 0xF207) rfl rfl (by decide) (by decide) rfl,
    executes_of (op := 0xF115) rfl rfl (by decide) (by decide) rfl,
    executes_of (op := 0xF418) rfl rfl (by decide) (by decide) rfl⟩

/-- After a Fx15, a next tick that reaches its timers, and one at the end of the program, which does not. -/
theorem witness_TimerInstructions_next :
    (∃ t, step { holding 0xF115 with inputs := [quiet, quiet] } = .next t ∧ reachesTimers t) ∧
    ∃ t, step { holding 0xF115 with progEnd := 0x202 } = .next t ∧ ¬ reachesTimers t :=
  ⟨⟨_, rfl, rfl, rfl, by decide⟩, ⟨_, rfl, fun h => absurd h.2.2 (by decide)⟩⟩

/-- A tick that reaches its timers, executing no timer write, and one that does not. -/
theorem witness_TimersCountOncePerExecutingTick :
    reachesTimers (holding 0x00E0) ∧ (∀ x, ¬ Executes (holding 0x00E0) (.ldDtVx x)) ∧
    (∀ x, ¬ Executes (holding 0x00E0) (.ldStVx x)) ∧ ¬ reachesTimers { base with runState := .blockedOnKey } ∧
    (∃ t, step (holding 0x00E0) = .next t) := by
  have h : Executes (holding 0x00E0) .cls := executes_of (op := 0x00E0) rfl rfl (by decide) (by decide) rfl
  refine ⟨h.1, fun x hx => ?_, fun x hx => ?_, fun hr => ?_, _, rfl⟩
  · cases executes_unique h hx
  · cases executes_unique h hx
  · cases hr.1

theorem witness_DelayTimerCountsDown :
    (∀ j u, j < 1 → core.run j (holding 0x00E0) = .next u → reachesTimers u ∧ ∀ x, ¬ Executes u (.ldDtVx x)) ∧
    ∃ t, core.run 1 (holding 0x00E0) = .next t := by
  refine ⟨fun j u hj hu => ?_, _, rfl⟩
  obtain rfl : j = 0 := by omega
  cases hu
  exact ⟨witness_TimersCountOncePerExecutingTick.1, witness_TimersCountOncePerExecutingTick.2.1⟩

/-- A waiting tick with presses, and one without. -/
theorem witness_KeyWaitEndsOnTheFirstPress :
    (∃ s : State, s.runState = .blockedOnKey ∧ s.nextInput.quit = false ∧
      (s.nextInput.events.filter fun e => e.kind == .press).head? = some (press 9)) ∧
    ∃ s : State, s.runState = .blockedOnKey ∧ s.nextInput.quit = false ∧
      (s.nextInput.events.filter fun e => e.kind == .press) = [] :=
  ⟨⟨{ holding 0xF00A ⟨[release 1, press 9, press 4], false, 0⟩ with runState := .blockedOnKey }, rfl, rfl, by decide⟩,
    ⟨{ holding 0xF00A ⟨[release 1], false, 0⟩ with runState := .blockedOnKey }, rfl, rfl, by decide⟩⟩

theorem witness_PollLeavesTheLastEvent :
    (∃ t, step (holding 0x00E0 ⟨[press 3], false, 0⟩) = .next t) ∧ (holding 0x00E0).runState = .running ∧
    lastEvent 3 [press 3, release 3] = some .release ∧ lastEvent 4 [press 3] = none ∧
    ∃ t, step { base with runState := .faulted } = .next t := ⟨⟨_, rfl⟩, rfl, by decide, by decide, _, rfl⟩

/-- Both kinds, and another key. -/
theorem witness_KeyEventCodes : KeyEvent.ofPort 0 3 = press 3 ∧ KeyEvent.ofPort 1 3 = release 3 ∧ (4 : Reg) ≠ 3 := by decide

/-- Each cause an instruction can raise, just past the edge of its condition. -/
theorem witness_FaultsExactlyWhereTheTableSays :
    raises (.call 0x300) { base with sp := 16 } = some .stackOverflow ∧ raises .ret base = some .stackUnderflow ∧
    raises (.drw 0 1 15) (base.setIndex 4082) = some .memRange ∧ raises (.ldB 0) (base.setIndex 4094) = some .memRange ∧
    raises (.stRegs 15) (base.setIndex 4081) = some .memRange ∧ raises (.ldRegs 0) (base.setIndex 4096) = some .memRange ∧
    raises (.skp 0) (base.setReg 0 16) = some .keyRange ∧ raises (.sknp 0) (base.setReg 0 16) = some .keyRange := by decide

theorem witness_InstructionsKeepTheirFrame : raises (.stRegs 15) (base.setIndex 4080) = none ∧ raises (.ldVxK 3) base = none := by
  decide

theorem witness_FaultEntryIsPrecise : reachesTimers (holding 0x00EE) ∧ (holding 0x00EE).fetch = some 0x00EE ∧
    decode 0x00EE = .ok .ret ∧ raises .ret (holding 0x00EE).atExecute = some .stackUnderflow :=
  ⟨⟨rfl, rfl, by decide⟩, by decide, rfl, by decide⟩

/-- The first and the last address of a fetch, and the ones just outside. -/
theorem witness_FetchIsBigEndianAndRangeChecked :
    (512 ≤ base.pc.toNat ∧ base.pc.toNat + 1 < 4096) ∧
    (512 ≤ ({ base with pc := 4094 } : State).pc.toNat ∧ ({ base with pc := 4094 } : State).pc.toNat + 1 < 4096) ∧
    reachesTimers { holding 0 with pc := 511 } ∧ reachesTimers { holding 0 with pc := 4095 } :=
  ⟨by decide, by decide, ⟨rfl, rfl, by decide⟩, ⟨rfl, rfl, by decide⟩⟩

theorem witness_DecodeErrorsAreReportedAndSkipped : reachesTimers (holding 0xFFFF) ∧ (holding 0xFFFF).fetch = some 0xFFFF ∧
    (opcodeTable.all fun r => (0xFFFF : Word) &&& r.mask != r.value) = true := ⟨⟨rfl, rfl, by decide⟩, by decide, by decide⟩

theorem witness_StepExecutesTheDecodedInstruction : reachesTimers (holding 0xF255) ∧ (holding 0xF255).fetch = some 0xF255 ∧
    decode 0xF255 = .ok (.stRegs 2) := ⟨⟨rfl, rfl, by decide⟩, by decide, rfl⟩

theorem witness_QuitEndsTheRun : (holding 0 ⟨[press 2], true, 0⟩).runState = .running ∧
    (holding 0 ⟨[press 2], true, 0⟩).nextInput.quit = true := by decide

/-- `pc` at the end of the program, and past it. -/
theorem witness_PastTheEndTerminates : ({ base with progEnd := 0x200 } : State).runState = .running ∧
    ({ base with progEnd := 0x200 } : State).nextInput.quit = false ∧
    ({ base with progEnd := 0x200 } : State).progEnd.toNat ≤ ({ base with progEnd := 0x200 } : State).pc.toNat ∧
    ({ base with pc := 0x10FE } : State).progEnd.toNat ≤ ({ base with pc := 0x10FE } : State).pc.toNat :=
  ⟨rfl, rfl, by decide, by decide⟩

theorem witness_FinalStatesChangeNothing : ({ base with runState := .terminated } : State).runState = .terminated ∧
    ({ base with runState := .faulted } : State).runState = .faulted := ⟨rfl, rfl⟩

theorem witness_FrameRequestedExactlyWhenExecuted : (∃ t, step (holding 0x00E0) = .next t ∧ t.present = true) ∧
    ∃ t, step (holding 0x00EE) = .next t ∧ t.present = false := ⟨⟨_, rfl, rfl⟩, _, rfl, rfl⟩

theorem witness_WriteOnceRegisters : (∃ t, step (holding 0x00E0) = .next t ∧ t.runState ≠ .faulted) ∧
    ∃ t, step { base with runState := .faulted } = .next t := ⟨⟨_, rfl, by decide⟩, _, rfl⟩

/-- A state with a non-empty stack, listed memory and the wait of Fx0A meets the invariant, and steps. -/
theorem witness_EveryStepKeepsInv :
    ∃ s t : State, Inv s ∧ step s = .next t ∧ s.runState = .blockedOnKey ∧ s.sp.val = 1 ∧ s.mem ≠ [] := by
  refine ⟨{ holding 0xF30A ⟨[press 7], false, 0⟩ with
    runState := .blockedOnKey, waitX := 3, sp := 1, stack := base.stack.set 0 0x200 }, _, ?_, rfl, rfl, rfl, by decide⟩
  refine ⟨by decide, by decide, by decide, fun j e hj he => ?_, fun _ => ⟨by decide, 0xF30A, by decide, rfl⟩,
    fun _ => ⟨rfl, rfl, rfl⟩, fun h => by cases h⟩
  obtain rfl : j = 0 := by have : j < 1 := hj; omega
  cases he
  decide

/-- The largest ROM, and one byte more. -/
theorem witness_LoadPlacesFontAndProgram : (List.replicate 3584 (0xAA : Byte)).length ≤ 3584 ∧
    3584 < (List.replicate 3585 (0xAA : Byte)).length ∧ Config.font.toList[79]? = some 0x80 ∧ [(0xAA : Byte)][0]? = some 0xAA := by
  refine ⟨?_, ?_, by decide, by decide⟩
  · rw [List.length_replicate]
  · rw [List.length_replicate]; decide

theorem witness_EmptyRomTerminatesAtOnce : ∃ s, State.load Config.font [] = some s := ⟨_, rfl⟩

theorem witness_EncodeOfDecode : decode 0x8FFE = .ok (.shl 15 15) := rfl

theorem witness_DecoderAgreesWithOpcodeTable : decode 0x8FFE = .ok (.shl 15 15) ∧ decode 0x8FFF = .error (.decodeError 0x8FFF) :=
  ⟨rfl, rfl⟩

end Sys2Proof.Tests
end

section
/-! PROOFS. The display statements: what 00E0 does, and that only 00E0 and Dxyn write the Display Buffer
(41_display.md R100, R103). -/

namespace Sys2Proof.Machine

/-! ### 00E0 -/

theorem exec_cls_clears (s : State) : exec .cls s = .next (s.setFb Screen.clear).advance := rfl

/-- A mask of all ones leaves one word to the row of 00E0 (30_encoding.md R80). -/
theorem rowDecodes_cls : RowDecodes 0xFFFF 0x00E0 (fun _ => .cls) := by
  intro op h
  have hop : op = 0x00E0 := (BitVec.and_allOnes (x := op)).symm.trans h
  rw [hop]
  rfl

/-- Replacing the Display Buffer and advancing touches nothing but the buffer and `pc`. -/
theorem frame_setFb_advance (s : State) (v : Screen) : Frame { screen := true } s (s.setFb v).advance where
  regs _ _ := rfl
  index _ := rfl
  stack _ := ⟨rfl, rfl⟩
  delay _ := rfl
  sound _ := rfl
  screen h := absurd h Bool.noConfusion
  wait _ := ⟨rfl, rfl⟩
  memory _ _ := rfl
  keys := rfl
  fault := ⟨rfl, rfl, rfl⟩
  progEnd := rfl
  inputs := ⟨rfl, rfl, rfl⟩
  outputs := ⟨rfl, rfl, rfl, rfl⟩

/-- Settles O1: the row has the one word 00E0, and its meaning is the all-off buffer and the PC-advance. -/
theorem clearTurnsEveryCellOff : Obligations.ClearTurnsEveryCellOff :=
  ⟨rowDecodes_cls, fun s =>
    ⟨(s.setFb Screen.clear).advance, exec_cls_clears s, rfl, frame_setFb_advance s _,
      fun j _ => Screen.cell_clear j⟩⟩

/-! ### The other instructions leave the buffer -/

/-- Whatever next state the result answers has the buffer of `s`. -/
def KeepsFb (s : State) (r : Result) : Prop := ∀ u, r = .next u → u.fb = s.fb

theorem keepsFb_done {s t : State} (h : t.fb = s.fb) : KeepsFb s (done t) := by
  rintro _ ⟨⟩
  exact h

/-- Fault entry writes the fault record only (60_exceptions.md R303). -/
theorem keepsFb_raise (s : State) (cause : Fault) (i : Instr) : KeepsFb s (raise cause i s) := by
  rintro _ ⟨⟩
  rfl

/-- An instruction that checks first and else faults keeps the buffer if its passing branch does. -/
theorem keepsFb_guarded {s : State} {c : Prop} [Decidable c] {r : c → Result} {cause : Fault} {i : Instr}
    (h : ∀ hc, KeepsFb s (r hc)) : KeepsFb s (if hc : c then r hc else raise cause i s) := by
  split
  · exact h _
  · exact keepsFb_raise s cause i

/-- A key skip keeps the buffer, with a key code and without (45_keys_timers.md R240, R241). -/
theorem keepsFb_skp (s : State) (x : Reg) : KeepsFb s (execSkp x s) := by
  unfold execSkp
  split
  · exact keepsFb_done rfl
  · exact keepsFb_raise s _ _

theorem keepsFb_sknp (s : State) (x : Reg) : KeepsFb s (execSknp x s) := by
  unfold execSknp
  split
  · exact keepsFb_done rfl
  · exact keepsFb_raise s _ _

/-- The frame of 41_display.md R100: an instruction whose `changesOf` does not name the buffer keeps it, whether it
completes or faults. -/
theorem exec_keepsFb (i : Instr) (s : State) (h : (changesOf i s).screen = false) : KeepsFb s (exec i s) := by
  cases i with
  | cls => cases h
  | drw x y n => cases h
  | ret => exact keepsFb_guarded fun _ => keepsFb_done rfl
  | call nnn => exact keepsFb_guarded fun _ => keepsFb_done rfl
  | ldB x => exact keepsFb_guarded fun _ => keepsFb_done rfl
  | stRegs x => exact keepsFb_guarded fun _ => keepsFb_done rfl
  | ldRegs x => exact keepsFb_guarded fun _ => keepsFb_done rfl
  | skp x => exact keepsFb_skp s x
  | sknp x => exact keepsFb_sknp s x
  | _ => exact keepsFb_done rfl

/-- The instructions that write the Display Buffer (41_display.md R100). -/
theorem changesOf_screen_iff (i : Instr) (s : State) :
    (changesOf i s).screen = true ↔ i = .cls ∨ ∃ x y n, i = .drw x y n := by
  cases i <;> simp [changesOf]

/-! ### The rest of a tick leaves the buffer -/

/-- Requesting a frame, or not, after an instruction leaves the buffer as the instruction left it (46 R280). -/
theorem fb_ite_requestFrame (u : State) : (if u.runState = .faulted then u else u.requestFrame).fb = u.fb := by
  split <;> rfl

/-- A step that changes the buffer executed an instruction that writes it. -/
theorem executes_of_fb_ne {s t : State} (h : step s = .next t) (hne : t.fb ≠ s.fb) :
    ∃ i, Executes s i ∧ (changesOf i s.atExecute).screen = true := by
  cases step_cases h with
  | final _ e => exact absurd (congrArg State.fb e) hne
  | ended _ _ e => exact absurd (congrArg State.fb e) hne
  | woken _ _ _ _ e => exact absurd (congrArg State.fb e) hne
  | waiting _ _ _ e => exact absurd (congrArg State.fb e) hne
  | fetchFault _ _ e => exact absurd (congrArg State.fb e) hne
  | decodeError _ _ _ _ e => exact absurd (congrArg State.fb e) hne
  | executed i u hi hx e =>
    refine ⟨i, hi, Bool.of_not_eq_false fun hscreen => hne ?_⟩
    calc t.fb = u.fb := by rw [e, fb_ite_requestFrame]
      _ = s.atExecute.fb := exec_keepsFb i s.atExecute hscreen u hx
      _ = s.fb := rfl

/-- A step that executes 00E0 leaves the all-off buffer. -/
theorem fb_of_executes_cls {s t : State} (h : step s = .next t) (hcls : Executes s .cls) : t.fb = Screen.clear := by
  rw [step_of_executes hcls, exec_cls_clears, finishInstr] at h
  split at h <;> cases h <;> rfl

/-- Settles O6, by the cases of a step: only an executed instruction can reach the buffer, and of those only 00E0 and
Dxyn name it in their frame. -/
theorem onlyClearAndDrawChangeTheDisplay : Obligations.OnlyClearAndDrawChangeTheDisplay := by
  refine ⟨fun s t h hne => ?_, fun s t h hcls j _ => ?_⟩
  · obtain ⟨i, hi, hscreen⟩ := executes_of_fb_ne h hne
    obtain rfl | ⟨x, y, n, rfl⟩ := (changesOf_screen_iff i _).mp hscreen
    · exact .inl hi
    · exact .inr ⟨x, y, n, hi⟩
  · rw [fb_of_executes_cls h hcls]
    exact Screen.cell_clear j

end Sys2Proof.Machine
end

section
/-! PROOFS. The control flow statements: the jump 1nnn and the immediate skips 3xkk and 4xkk (42_control_flow.md R136 to
R138). -/

namespace Sys2Proof.Machine

/-! ### The rows of the jump and of the immediate skips -/

theorem decode_of_opHigh_one {op : Word} (h : opHigh op = 0x1#4) : decode op = .ok (.jp (opNNN op)) := by
  simp [decode, decodeRow, h]

theorem decode_of_opHigh_three {op : Word} (h : opHigh op = 0x3#4) :
    decode op = .ok (.seImm (opX op) (opKK op)) := by
  simp [decode, decodeRow, h]

theorem decode_of_opHigh_four {op : Word} (h : opHigh op = 0x4#4) :
    decode op = .ok (.sneImm (opX op) (opKK op)) := by
  simp [decode, decodeRow, h]

theorem rowDecodes_jp : RowDecodes 0xF000 0x1000 (fun op => .jp (opNNN op)) :=
  fun _ h => decode_of_opHigh_one (opHigh_of_mask h)

theorem rowDecodes_seImm : RowDecodes 0xF000 0x3000 (fun op => .seImm (opX op) (opKK op)) :=
  fun _ h => decode_of_opHigh_three (opHigh_of_mask h)

theorem rowDecodes_sneImm : RowDecodes 0xF000 0x4000 (fun op => .sneImm (opX op) (opKK op)) :=
  fun _ h => decode_of_opHigh_four (opHigh_of_mask h)

/-! ### Instructions that write `pc` only -/

/-- Writing `pc` is within the empty frame (42_control_flow.md R133). -/
theorem frame_setPc (s : State) (v : Word) : Frame { } s (s.setPc v) where
  regs _ _ := rfl
  index _ := rfl
  stack _ := ⟨rfl, rfl⟩
  delay _ := rfl
  sound _ := rfl
  screen _ := rfl
  wait _ := ⟨rfl, rfl⟩
  memory _ _ := rfl
  keys := rfl
  fault := ⟨rfl, rfl, rfl⟩
  progEnd := rfl
  inputs := ⟨rfl, rfl, rfl⟩
  outputs := ⟨rfl, rfl, rfl, rfl⟩

/-- An instruction whose meaning is one write of `pc` runs to that `pc`, with the empty frame. -/
theorem runsTo_of_exec_setPc {i : Instr} {s : State} {v : Word} {post : State → Prop}
    (hx : exec i s = .next (s.setPc v)) (hp : post (s.setPc v)) : RunsTo i s { } v post :=
  ⟨s.setPc v, hx, rfl, frame_setPc s v, hp⟩

/-! ### The immediate skips -/

theorem exec_seImm_skips (x : Reg) (kk : Byte) (s : State) :
    exec (.seImm x kk) s = .next (s.setPc (if s.reg x = kk then s.pc + 4 else s.pc + 2)) := by
  simp only [exec, execSeImm, done, State.skipIf, beq_iff_eq]

theorem exec_sneImm_skips (x : Reg) (kk : Byte) (s : State) :
    exec (.sneImm x kk) s = .next (s.setPc (if s.reg x = kk then s.pc + 2 else s.pc + 4)) := by
  simp only [exec, execSneImm, done, State.skipIf, bne_iff_ne, ne_eq, ite_not]

/-- Settles O8: each row is one value of the high nibble, and each skip is one write of `pc`, so `x = F` is no special
case. -/
theorem immediateSkips : Obligations.ImmediateSkips :=
  ⟨rowDecodes_seImm, rowDecodes_sneImm, fun x kk s =>
    ⟨runsTo_of_exec_setPc (exec_seImm_skips x kk s) trivial, runsTo_of_exec_setPc (exec_sneImm_skips x kk s) trivial⟩⟩

/-! ### The jump -/

theorem exec_jp_setPc (nnn : BitVec 12) (s : State) : exec (.jp nnn) s = .next (s.setPc (nnn.setWidth 16)) := rfl

theorem toNat_setWidth_nnn (nnn : BitVec 12) : (nnn.setWidth 16).toNat = nnn.toNat :=
  BitVec.toNat_setWidth_of_le (by decide)

/-- A tick that executes 1nnn: the target in `pc`, and a frame requested, since a jump never faults. -/
theorem step_of_executes_jp {s : State} {nnn : BitVec 12} (h : Executes s (.jp nnn)) :
    step s = .next (s.atExecute.setPc (nnn.setWidth 16)).requestFrame := by
  have hrun : s.atExecute.runState = .running := h.1.1
  rw [step_of_executes h, exec_jp_setPc, finishInstr, State.setPc_runState, hrun, if_neg (by decide)]

/-- A RUNNING state without quit executes what a state with its `pc`, program end and memory executes. -/
theorem executes_congr {s t : State} {i : Instr} (h : Executes s i) (hpc : t.pc = s.pc) (hend : t.progEnd = s.progEnd)
    (hmem : t.mem = s.mem) (hrun : t.runState = .running) (hquit : t.nextInput.quit = false) : Executes t i := by
  obtain ⟨⟨-, -, hlt⟩, op, hfetch, hdecode⟩ := h
  exact ⟨⟨hrun, hquit, by rwa [hpc, hend]⟩, op, (State.fetch_congr hpc hmem).trans hfetch, hdecode⟩

/-- Settles O7: the step of an executed jump is known outright, and one to its own address leaves `pc`, the program end
and memory, hence the next tick's instruction, as they were. -/
theorem jumpSetsPc : Obligations.JumpSetsPc := by
  refine ⟨rowDecodes_jp, fun nnn s => runsTo_of_exec_setPc (exec_jp_setPc nnn s) (toNat_setWidth_nnn nnn),
    fun nnn s t hstep hjp hself => ?_⟩
  rw [step_of_executes_jp hjp] at hstep
  cases hstep
  have hrun : s.runState = .running := hjp.1.1
  have hpc : nnn.setWidth 16 = s.pc := BitVec.eq_of_toNat_eq ((toNat_setWidth_nnn nnn).trans hself)
  exact ⟨hrun, toNat_timerTick s.dt, toNat_timerTick s.st, executes_congr hjp hpc rfl rfl hrun⟩

end Sys2Proof.Machine
end

section
/-! PROOFS. The register statements: the loads 6xkk and 8xy0 (43_register_alu.md R170, R172). -/

namespace Sys2Proof.Machine

/-! ### The rows of the loads -/

theorem decode_of_opHigh_six {op : Word} (h : opHigh op = 0x6#4) : decode op = .ok (.ldImm (opX op) (opKK op)) := by
  simp [decode, decodeRow, h]

/-- Family 8 looks at the low nibble too (30_encoding.md R76). -/
theorem decode_of_opHigh_eight_opN_zero {op : Word} (hhigh : opHigh op = 0x8#4) (hlow : opN op = 0x0#4) :
    decode op = .ok (.ldReg (opX op) (opY op)) := by
  simp [decode, decodeRow, decode8, hhigh, hlow]

theorem rowDecodes_ldImm : RowDecodes 0xF000 0x6000 (fun op => .ldImm (opX op) (opKK op)) :=
  fun _ h => decode_of_opHigh_six (opHigh_of_mask h)

theorem rowDecodes_ldReg : RowDecodes 0xF00F 0x8000 (fun op => .ldReg (opX op) (opY op)) :=
  fun _ h => decode_of_opHigh_eight_opN_zero (opHigh_of_mask h) (opN_of_mask h)

/-! ### Instructions that write one register -/

/-- Writing `V[x]` and advancing touches no other register and, besides `pc`, nothing else; VF is a register like any
other here. -/
theorem frame_setReg_advance (s : State) (x : Reg) (v : Byte) :
    Frame { regs := fun r => r == x } s (s.setReg x v).advance where
  regs _ h := State.reg_setReg_ne s v (ne_of_beq_false h)
  index _ := rfl
  stack _ := ⟨rfl, rfl⟩
  delay _ := rfl
  sound _ := rfl
  screen _ := rfl
  wait _ := ⟨rfl, rfl⟩
  memory _ _ := rfl
  keys := rfl
  fault := ⟨rfl, rfl, rfl⟩
  progEnd := rfl
  inputs := ⟨rfl, rfl, rfl⟩
  outputs := ⟨rfl, rfl, rfl, rfl⟩

/-- An instruction whose meaning is one register write and the PC-advance has the frame of that register, and its
result is known by the value written. -/
theorem runsTo_of_exec_setReg {i : Instr} {s : State} {x : Reg} {v : Byte} {post : State → Prop}
    (hx : exec i s = .next (s.setReg x v).advance) (hp : ∀ t : State, t.reg x = v → post t) :
    RunsTo i s { regs := fun r => r == x } (s.pc + 2) post :=
  ⟨(s.setReg x v).advance, hx, rfl, frame_setReg_advance s x v, hp _ (State.reg_setReg_same s x v)⟩

theorem exec_ldImm_writes (x : Reg) (kk : Byte) (s : State) : exec (.ldImm x kk) s = .next (s.setReg x kk).advance := rfl

theorem exec_ldReg_writes (x y : Reg) (s : State) : exec (.ldReg x y) s = .next (s.setReg x (s.reg y)).advance := rfl

/-- Settles O15: the fixed digits of each row select it, and each load is one register write, so `x = F` is no special
case. -/
theorem loadsIntoARegister : Obligations.LoadsIntoARegister :=
  ⟨rowDecodes_ldImm, rowDecodes_ldReg, fun x y kk s =>
    ⟨runsTo_of_exec_setReg (exec_ldImm_writes x kk s) fun _ => id,
      runsTo_of_exec_setReg (exec_ldReg_writes x y s) fun _ => id⟩⟩

end Sys2Proof.Machine
end

section
/-! PROOFS. The index statements: the loads of `I`, Annn and Fx29 (44_index_memory.md R210, R212). -/

namespace Sys2Proof.Machine

/-! ### The rows of the loads of `I` -/

theorem decode_of_opHigh_ten {op : Word} (h : opHigh op = 0xA#4) : decode op = .ok (.ldI (opNNN op)) := by
  simp [decode, decodeRow, h]

/-- Family F is every word with the highest nibble, and looks at the low byte only (30_encoding.md R76). -/
theorem decodeRow_of_opHigh_fifteen {op : Word} (h : opHigh op = 0xF#4) : decodeRow op = decodeF op := by
  simp [decodeRow, h]

theorem decode_of_opHigh_fifteen_opKK_hex29 {op : Word} (hhigh : opHigh op = 0xF#4) (hlow : opKK op = 0x29#8) :
    decode op = .ok (.ldF (opX op)) := by
  simp [decode, decodeRow_of_opHigh_fifteen hhigh, decodeF, hlow]

theorem rowDecodes_ldI : RowDecodes 0xF000 0xA000 (fun op => .ldI (opNNN op)) :=
  fun _ h => decode_of_opHigh_ten (opHigh_of_mask h)

theorem rowDecodes_ldF : RowDecodes 0xF0FF 0xF029 (fun op => .ldF (opX op)) :=
  fun _ h => decode_of_opHigh_fifteen_opKK_hex29 (opHigh_of_mask h) (opKK_of_mask h)

/-! ### Instructions that write `I` -/

/-- Writing `I` and advancing touches nothing but `I` and `pc`: no register, so not VF either, and no memory. -/
theorem frame_setIndex_advance (s : State) (v : Word) : Frame { index := true } s (s.setIndex v).advance where
  regs _ _ := rfl
  index h := absurd h Bool.noConfusion
  stack _ := ⟨rfl, rfl⟩
  delay _ := rfl
  sound _ := rfl
  screen _ := rfl
  wait _ := ⟨rfl, rfl⟩
  memory _ _ := rfl
  keys := rfl
  fault := ⟨rfl, rfl, rfl⟩
  progEnd := rfl
  inputs := ⟨rfl, rfl, rfl⟩
  outputs := ⟨rfl, rfl, rfl, rfl⟩

/-- An instruction whose meaning is one write of `I` and the PC-advance has the frame of `I`, and its result is known
by the value written. -/
theorem runsTo_of_exec_setIndex {i : Instr} {s : State} {v : Word} {post : State → Prop}
    (hx : exec i s = .next (s.setIndex v).advance) (hp : ∀ t : State, t.index = v → post t) :
    RunsTo i s { index := true } (s.pc + 2) post :=
  ⟨(s.setIndex v).advance, hx, rfl, frame_setIndex_advance s v, hp _ rfl⟩

theorem exec_ldI_writes (nnn : BitVec 12) (s : State) :
    exec (.ldI nnn) s = .next (s.setIndex (nnn.setWidth 16)).advance := rfl

theorem exec_ldF_writes (x : Reg) (s : State) : exec (.ldF x) s = .next (s.setIndex (fontAddr (s.reg x))).advance := rfl

/-- Five times a byte is at most 1275, so the 16-bit product is exact: the value is not reduced to a digit
(44_index_memory.md R212). -/
theorem toNat_fontAddr (v : Byte) : (fontAddr v).toNat = v.toNat * 5 := by
  have hv : v.toNat < 256 := v.isLt
  have hzext : (zextByte v).toNat = v.toNat := BitVec.toNat_setWidth_of_le (by decide)
  rw [fontAddr, BitVec.toNat_mul, hzext]
  exact Nat.mod_eq_of_lt (show v.toNat * 5 < 65536 by omega)

/-- Settles O24: the fixed digits of each row select it, and each load is one write of `I`, with a font address that
cannot wrap. -/
theorem indexLoads : Obligations.IndexLoads :=
  ⟨rowDecodes_ldI, rowDecodes_ldF, fun nnn x s =>
    ⟨runsTo_of_exec_setIndex (exec_ldI_writes nnn s) fun _ => id,
      runsTo_of_exec_setIndex (exec_ldF_writes x s) fun _ ht =>
        (congrArg BitVec.toNat ht).trans (toNat_fontAddr (s.reg x))⟩⟩

end Sys2Proof.Machine
end

section
/-! PROOFS. The timer decrement statement (46_sequencer_and_ports.md R270): which ticks count, and which instructions
write a timer after the count. -/

namespace Sys2Proof.Machine

/-! ### The instructions leave the timers they do not write -/

/-- Whatever next state the result of `i` answers has the DT of `s` unless `i` is Fx15, and its ST unless `i` is Fx18
(45_keys_timers.md R243, R244). -/
def KeepsTimers (i : Instr) (s : State) (r : Result) : Prop :=
  ∀ u, r = .next u → ((∀ x, i ≠ .ldDtVx x) → u.dt = s.dt) ∧ ((∀ x, i ≠ .ldStVx x) → u.st = s.st)

theorem keepsTimers_done {i : Instr} {s t : State} (hdt : t.dt = s.dt) (hst : t.st = s.st) :
    KeepsTimers i s (done t) := by
  rintro _ ⟨⟩
  exact ⟨fun _ => hdt, fun _ => hst⟩

/-- Fault entry writes the fault record only (60_exceptions.md R303), so the decrement of the tick stands. -/
theorem keepsTimers_raise (i : Instr) (s : State) (cause : Fault) : KeepsTimers i s (raise cause i s) :=
  keepsTimers_done rfl rfl

/-- An instruction that checks first and else faults keeps the timers if its passing branch does. -/
theorem keepsTimers_guarded {i : Instr} {s : State} {c : Prop} [Decidable c] {r : c → Result} {cause : Fault}
    (h : ∀ hc, KeepsTimers i s (r hc)) : KeepsTimers i s (if hc : c then r hc else raise cause i s) := by
  split
  · exact h _
  · exact keepsTimers_raise i s cause

/-- The key skips keep the timers, with a key code and without (45_keys_timers.md R240, R241). -/
theorem keepsTimers_keySkips (s : State) (x : Reg) :
    KeepsTimers (.skp x) s (execSkp x s) ∧ KeepsTimers (.sknp x) s (execSknp x s) := by
  unfold execSkp execSknp
  cases keyOperand (s.reg x) with
  | some k => exact ⟨keepsTimers_done rfl rfl, keepsTimers_done rfl rfl⟩
  | none => exact ⟨keepsTimers_raise _ s _, keepsTimers_raise _ s _⟩

/-- Only Fx15 and Fx18 write a timer, whether the instruction completes or faults. -/
theorem exec_keepsTimers (i : Instr) (s : State) : KeepsTimers i s (exec i s) := by
  cases i with
  | ldDtVx x => rintro _ ⟨⟩; exact ⟨fun hne => absurd rfl (hne x), fun _ => rfl⟩
  | ldStVx x => rintro _ ⟨⟩; exact ⟨fun _ => rfl, fun hne => absurd rfl (hne x)⟩
  | ret => exact keepsTimers_guarded fun _ => keepsTimers_done rfl rfl
  | call nnn => exact keepsTimers_guarded fun _ => keepsTimers_done rfl rfl
  | drw x y n => exact keepsTimers_guarded fun _ => keepsTimers_done rfl rfl
  | ldB x => exact keepsTimers_guarded fun _ => keepsTimers_done rfl rfl
  | stRegs x => exact keepsTimers_guarded fun _ => keepsTimers_done rfl rfl
  | ldRegs x => exact keepsTimers_guarded fun _ => keepsTimers_done rfl rfl
  | skp x => exact (keepsTimers_keySkips s x).left
  | sknp x => exact (keepsTimers_keySkips s x).right
  | _ => exact keepsTimers_done rfl rfl

/-! ### The timers after a tick -/

/-- Requesting a frame, or not, after an instruction leaves the timers as the instruction left them (46 R280). -/
theorem timers_ite_requestFrame (u : State) :
    (if u.runState = .faulted then u else u.requestFrame).dt = u.dt ∧
    (if u.runState = .faulted then u else u.requestFrame).st = u.st := by
  split <;> exact ⟨rfl, rfl⟩

theorem not_reachesTimers_of_ne_running {s : State} (h : s.runState ≠ .running) : ¬ reachesTimers s :=
  fun hr => h hr.1

/-- Every tick either stops short of its timer stage and keeps both timers, or ticks each timer that its instruction
does not write (46 R270, R274). -/
theorem timers_step_cases {s t : State} (h : step s = .next t) :
    (¬ reachesTimers s ∧ t.dt = s.dt ∧ t.st = s.st) ∨
    (reachesTimers s ∧ ((∀ x, ¬ Executes s (.ldDtVx x)) → t.dt = timerTick s.dt) ∧
      ((∀ x, ¬ Executes s (.ldStVx x)) → t.st = timerTick s.st)) := by
  cases step_cases h with
  | final hs e =>
    subst e
    exact .inl ⟨not_reachesTimers_of_ne_running (by rcases hs with hs | hs <;> simp [hs]), rfl, rfl⟩
  | ended _ hn e => subst e; exact .inl ⟨hn, rfl, rfl⟩
  | woken _ hs _ _ e => subst e; exact .inl ⟨not_reachesTimers_of_ne_running (by simp [hs]), rfl, rfl⟩
  | waiting hs _ _ e => subst e; exact .inl ⟨not_reachesTimers_of_ne_running (by simp [hs]), rfl, rfl⟩
  | fetchFault hr _ e => subst e; exact .inr ⟨hr, fun _ => rfl, fun _ => rfl⟩
  | decodeError _ hr _ _ e => subst e; exact .inr ⟨hr, fun _ => rfl, fun _ => rfl⟩
  | executed i u hi hx e =>
    obtain ⟨hdt, hst⟩ := exec_keepsTimers i s.atExecute u hx
    obtain ⟨hframeDt, hframeSt⟩ := timers_ite_requestFrame u
    subst e
    exact .inr ⟨hi.1, fun hno => hframeDt.trans (hdt fun x hx15 => hno x (hx15 ▸ hi)),
      fun hno => hframeSt.trans (hst fun x hx18 => hno x (hx18 ▸ hi))⟩

/-- Settles O33: by the cases of a step, a tick that stops short of its timer stage keeps the timers, and in any other
the ticked values stand but for the one an executed Fx15 or Fx18 writes. -/
theorem timersCountOncePerExecutingTick : Obligations.TimersCountOncePerExecutingTick := by
  intro s t h
  refine ⟨fun _ => ⟨toNat_timerTick s.dt, toNat_timerTick s.st⟩, ?_⟩
  obtain ⟨hn, hkept⟩ | ⟨hr, hdt, hst⟩ := timers_step_cases h
  · exact ⟨fun hr => absurd hr hn, fun hr => absurd hr hn, fun _ => hkept⟩
  · refine ⟨fun _ hno => ?_, fun _ hno => ?_, fun hn => absurd hr hn⟩
    · rw [hdt hno, toNat_timerTick]
    · rw [hst hno, toNat_timerTick]

end Sys2Proof.Machine
end

section
/-! PROOFS. The encoding statements: every row of the opcode table decodes to its instruction, decoding and encoding undo
each other, and decoder and table agree on every word (30_encoding.md R71 to R80). -/

namespace Sys2Proof.Machine

/-! ### The rows of the opcode table -/

theorem decode_of_decodeRow {op : Word} {i : Instr} (h : decodeRow op = some i) : decode op = .ok i := by
  rw [decode, h]

/-- A row whose mask covers the high nibble alone (30_encoding.md R71). -/
theorem rowDecodes_of_high {value : Word} {mk : Word → Instr} (high : BitVec 4)
    (hv : opHigh value = high) (h : ∀ op, opHigh op = high → decodeRow op = some (mk op)) :
    RowDecodes 0xF000 value mk :=
  fun op hop => decode_of_decodeRow (h op ((opHigh_of_mask hop).trans hv))

/-- A row whose mask covers the high and the low nibble (30_encoding.md R76). -/
theorem rowDecodes_of_high_low {value : Word} {mk : Word → Instr} (high low : BitVec 4)
    (hv : opHigh value = high ∧ opN value = low)
    (h : ∀ op, opHigh op = high → opN op = low → decodeRow op = some (mk op)) : RowDecodes 0xF00F value mk :=
  fun op hop => decode_of_decodeRow (h op ((opHigh_of_mask hop).trans hv.1) ((opN_of_mask hop).trans hv.2))

/-- A row whose mask covers the high nibble and the low byte (30_encoding.md R76). -/
theorem rowDecodes_of_high_byte {value : Word} {mk : Word → Instr} (high : BitVec 4) (low : Byte)
    (hv : opHigh value = high ∧ opKK value = low)
    (h : ∀ op, opHigh op = high → opKK op = low → decodeRow op = some (mk op)) : RowDecodes 0xF0FF value mk :=
  fun op hop => decode_of_decodeRow (h op ((opHigh_of_mask hop).trans hv.1) ((opKK_of_mask hop).trans hv.2))

/-- Family 8 (30_encoding.md R76): the low nibble selects. -/
theorem rowDecodes_family8 {value : Word} {mk : Word → Instr} (low : BitVec 4)
    (hv : opHigh value = 0x8#4 ∧ opN value = low) (h : ∀ op, opN op = low → decode8 op = some (mk op)) :
    RowDecodes 0xF00F value mk :=
  rowDecodes_of_high_low 0x8#4 low hv fun op hhigh hlow => by simp [decodeRow, hhigh, h op hlow]

/-- Family F: the low byte selects. -/
theorem rowDecodes_familyF {value : Word} {mk : Word → Instr} (low : Byte)
    (hv : opHigh value = 0xF#4 ∧ opKK value = low) (h : ∀ op, opKK op = low → decodeF op = some (mk op)) :
    RowDecodes 0xF0FF value mk :=
  rowDecodes_of_high_byte 0xF#4 low hv fun op hhigh hlow => (decodeRow_of_opHigh_fifteen hhigh).trans (h op hlow)

theorem rowDecodes_ret : RowDecodes 0xFFFF 0x00EE (fun _ => .ret) := by
  intro op h
  have hop : op = 0x00EE := (BitVec.and_allOnes (x := op)).symm.trans h
  rw [hop]
  rfl

theorem rowDecodes_call : RowDecodes 0xF000 0x2000 (fun op => .call (opNNN op)) :=
  rowDecodes_of_high 0x2#4 rfl fun op h => by simp [decodeRow, h]

theorem rowDecodes_seReg : RowDecodes 0xF00F 0x5000 (fun op => .seReg (opX op) (opY op)) :=
  rowDecodes_of_high_low 0x5#4 0x0#4 ⟨rfl, rfl⟩ fun op h hn => by simp [decodeRow, h, decodeXY0, hn]

theorem rowDecodes_sneReg : RowDecodes 0xF00F 0x9000 (fun op => .sneReg (opX op) (opY op)) :=
  rowDecodes_of_high_low 0x9#4 0x0#4 ⟨rfl, rfl⟩ fun op h hn => by simp [decodeRow, h, decodeXY0, hn]

theorem rowDecodes_addImm : RowDecodes 0xF000 0x7000 (fun op => .addImm (opX op) (opKK op)) :=
  rowDecodes_of_high 0x7#4 rfl fun op h => by simp [decodeRow, h]

theorem rowDecodes_orReg : RowDecodes 0xF00F 0x8001 (fun op => .orReg (opX op) (opY op)) :=
  rowDecodes_family8 0x1#4 ⟨rfl, rfl⟩ fun op hn => by simp [decode8, hn]

theorem rowDecodes_andReg : RowDecodes 0xF00F 0x8002 (fun op => .andReg (opX op) (opY op)) :=
  rowDecodes_family8 0x2#4 ⟨rfl, rfl⟩ fun op hn => by simp [decode8, hn]

theorem rowDecodes_xorReg : RowDecodes 0xF00F 0x8003 (fun op => .xorReg (opX op) (opY op)) :=
  rowDecodes_family8 0x3#4 ⟨rfl, rfl⟩ fun op hn => by simp [decode8, hn]

theorem rowDecodes_addReg : RowDecodes 0xF00F 0x8004 (fun op => .addReg (opX op) (opY op)) :=
  rowDecodes_family8 0x4#4 ⟨rfl, rfl⟩ fun op hn => by simp [decode8, hn]

theorem rowDecodes_sub : RowDecodes 0xF00F 0x8005 (fun op => .sub (opX op) (opY op)) :=
  rowDecodes_family8 0x5#4 ⟨rfl, rfl⟩ fun op hn => by simp [decode8, hn]

theorem rowDecodes_shr : RowDecodes 0xF00F 0x8006 (fun op => .shr (opX op) (opY op)) :=
  rowDecodes_family8 0x6#4 ⟨rfl, rfl⟩ fun op hn => by simp [decode8, hn]

theorem rowDecodes_subn : RowDecodes 0xF00F 0x8007 (fun op => .subn (opX op) (opY op)) :=
  rowDecodes_family8 0x7#4 ⟨rfl, rfl⟩ fun op hn => by simp [decode8, hn]

theorem rowDecodes_shl : RowDecodes 0xF00F 0x800E (fun op => .shl (opX op) (opY op)) :=
  rowDecodes_family8 0xE#4 ⟨rfl, rfl⟩ fun op hn => by simp [decode8, hn]

theorem rowDecodes_jpV0 : RowDecodes 0xF000 0xB000 (fun op => .jpV0 (opNNN op)) :=
  rowDecodes_of_high 0xB#4 rfl fun op h => by simp [decodeRow, h]

theorem rowDecodes_rnd : RowDecodes 0xF000 0xC000 (fun op => .rnd (opX op) (opKK op)) :=
  rowDecodes_of_high 0xC#4 rfl fun op h => by simp [decodeRow, h]

theorem rowDecodes_drw : RowDecodes 0xF000 0xD000 (fun op => .drw (opX op) (opY op) (opN op)) :=
  rowDecodes_of_high 0xD#4 rfl fun op h => by simp [decodeRow, h]

theorem rowDecodes_skp : RowDecodes 0xF0FF 0xE09E (fun op => .skp (opX op)) :=
  rowDecodes_of_high_byte 0xE#4 0x9E#8 ⟨rfl, rfl⟩ fun op h hk => by simp [decodeRow, h, decodeE, hk]

theorem rowDecodes_sknp : RowDecodes 0xF0FF 0xE0A1 (fun op => .sknp (opX op)) :=
  rowDecodes_of_high_byte 0xE#4 0xA1#8 ⟨rfl, rfl⟩ fun op h hk => by simp [decodeRow, h, decodeE, hk]

theorem rowDecodes_ldVxDt : RowDecodes 0xF0FF 0xF007 (fun op => .ldVxDt (opX op)) :=
  rowDecodes_familyF 0x07#8 ⟨rfl, rfl⟩ fun op hk => by simp [decodeF, hk]

theorem rowDecodes_ldDtVx : RowDecodes 0xF0FF 0xF015 (fun op => .ldDtVx (opX op)) :=
  rowDecodes_familyF 0x15#8 ⟨rfl, rfl⟩ fun op hk => by simp [decodeF, hk]

theorem rowDecodes_ldStVx : RowDecodes 0xF0FF 0xF018 (fun op => .ldStVx (opX op)) :=
  rowDecodes_familyF 0x18#8 ⟨rfl, rfl⟩ fun op hk => by simp [decodeF, hk]

theorem rowDecodes_ldVxK : RowDecodes 0xF0FF 0xF00A (fun op => .ldVxK (opX op)) :=
  rowDecodes_familyF 0x0A#8 ⟨rfl, rfl⟩ fun op hk => by simp [decodeF, hk]

theorem rowDecodes_addI : RowDecodes 0xF0FF 0xF01E (fun op => .addI (opX op)) :=
  rowDecodes_familyF 0x1E#8 ⟨rfl, rfl⟩ fun op hk => by simp [decodeF, hk]

theorem rowDecodes_ldB : RowDecodes 0xF0FF 0xF033 (fun op => .ldB (opX op)) :=
  rowDecodes_familyF 0x33#8 ⟨rfl, rfl⟩ fun op hk => by simp [decodeF, hk]

theorem rowDecodes_stRegs : RowDecodes 0xF0FF 0xF055 (fun op => .stRegs (opX op)) :=
  rowDecodes_familyF 0x55#8 ⟨rfl, rfl⟩ fun op hk => by simp [decodeF, hk]

theorem rowDecodes_ldRegs : RowDecodes 0xF0FF 0xF065 (fun op => .ldRegs (opX op)) :=
  rowDecodes_familyF 0x65#8 ⟨rfl, rfl⟩ fun op hk => by simp [decodeF, hk]

/-! ### The word of an instruction matches the instruction's row -/

theorem nnn_and_mask (h : BitVec 4) (nnn : BitVec 12) : (h ++ nnn) &&& 0xF000#16 = h ++ 0#12 := by
  have hmask : 0xF000#16 = BitVec.allOnes 4 ++ 0#12 := rfl
  rw [hmask, BitVec.and_append, BitVec.and_allOnes, BitVec.and_zero]

theorem xkk_and_mask (h x : BitVec 4) (kk : Byte) : (h ++ x ++ kk) &&& 0xF000#16 = h ++ 0#4 ++ 0#8 := by
  have hmask : 0xF000#16 = BitVec.allOnes 4 ++ 0#4 ++ 0#8 := rfl
  rw [hmask, BitVec.and_append, BitVec.and_append, BitVec.and_allOnes, BitVec.and_zero, BitVec.and_zero]

theorem xkk_and_mask_byte (h x : BitVec 4) (kk : Byte) : (h ++ x ++ kk) &&& 0xF0FF#16 = h ++ 0#4 ++ kk := by
  have hmask : 0xF0FF#16 = BitVec.allOnes 4 ++ 0#4 ++ BitVec.allOnes 8 := rfl
  rw [hmask, BitVec.and_append, BitVec.and_append, BitVec.and_allOnes, BitVec.and_allOnes, BitVec.and_zero]

theorem xyn_and_mask (h x y n : BitVec 4) : (h ++ x ++ y ++ n) &&& 0xF000#16 = h ++ 0#4 ++ 0#4 ++ 0#4 := by
  have hmask : 0xF000#16 = BitVec.allOnes 4 ++ 0#4 ++ 0#4 ++ 0#4 := rfl
  rw [hmask, BitVec.and_append, BitVec.and_append, BitVec.and_append, BitVec.and_allOnes, BitVec.and_zero,
    BitVec.and_zero, BitVec.and_zero]

theorem xyn_and_mask_low (h x y n : BitVec 4) : (h ++ x ++ y ++ n) &&& 0xF00F#16 = h ++ 0#4 ++ 0#4 ++ n := by
  have hmask : 0xF00F#16 = BitVec.allOnes 4 ++ 0#4 ++ 0#4 ++ BitVec.allOnes 4 := rfl
  rw [hmask, BitVec.and_append, BitVec.and_append, BitVec.and_append, BitVec.and_allOnes, BitVec.and_allOnes,
    BitVec.and_zero, BitVec.and_zero]

/-- `r` is the row of `i`: the word of `i` matches it, and every word that does decodes by it, the word of `i` back to
`i`. -/
structure OwnRow (i : Instr) (r : OpRow) (mk : Word → Instr) : Prop where
  row : opcodeTable[i.row - 1]? = some r
  decodes : RowDecodes r.mask r.value mk
  word : encode i &&& r.mask = r.value
  operands : mk (encode i) = i

/-- Every instruction has its row in the table (30_encoding.md R80). -/
theorem ownRow (i : Instr) : ∃ r mk, OwnRow i r mk := by
  cases i with
  | cls => exact ⟨_, _, rfl, rowDecodes_cls, rfl, rfl⟩
  | ret => exact ⟨_, _, rfl, rowDecodes_ret, rfl, rfl⟩
  | jp nnn => exact ⟨_, _, rfl, rowDecodes_jp, nnn_and_mask _ nnn, by simp [encode]⟩
  | call nnn => exact ⟨_, _, rfl, rowDecodes_call, nnn_and_mask _ nnn, by simp [encode]⟩
  | seImm x kk => exact ⟨_, _, rfl, rowDecodes_seImm, xkk_and_mask _ x kk, by simp [encode]⟩
  | sneImm x kk => exact ⟨_, _, rfl, rowDecodes_sneImm, xkk_and_mask _ x kk, by simp [encode]⟩
  | seReg x y => exact ⟨_, _, rfl, rowDecodes_seReg, xyn_and_mask_low _ x y _, by simp [encode]⟩
  | sneReg x y => exact ⟨_, _, rfl, rowDecodes_sneReg, xyn_and_mask_low _ x y _, by simp [encode]⟩
  | ldImm x kk => exact ⟨_, _, rfl, rowDecodes_ldImm, xkk_and_mask _ x kk, by simp [encode]⟩
  | addImm x kk => exact ⟨_, _, rfl, rowDecodes_addImm, xkk_and_mask _ x kk, by simp [encode]⟩
  | ldReg x y => exact ⟨_, _, rfl, rowDecodes_ldReg, xyn_and_mask_low _ x y _, by simp [encode]⟩
  | orReg x y => exact ⟨_, _, rfl, rowDecodes_orReg, xyn_and_mask_low _ x y _, by simp [encode]⟩
  | andReg x y => exact ⟨_, _, rfl, rowDecodes_andReg, xyn_and_mask_low _ x y _, by simp [encode]⟩
  | xorReg x y => exact ⟨_, _, rfl, rowDecodes_xorReg, xyn_and_mask_low _ x y _, by simp [encode]⟩
  | addReg x y => exact ⟨_, _, rfl, rowDecodes_addReg, xyn_and_mask_low _ x y _, by simp [encode]⟩
  | sub x y => exact ⟨_, _, rfl, rowDecodes_sub, xyn_and_mask_low _ x y _, by simp [encode]⟩
  | shr x y => exact ⟨_, _, rfl, rowDecodes_shr, xyn_and_mask_low _ x y _, by simp [encode]⟩
  | subn x y => exact ⟨_, _, rfl, rowDecodes_subn, xyn_and_mask_low _ x y _, by simp [encode]⟩
  | shl x y => exact ⟨_, _, rfl, rowDecodes_shl, xyn_and_mask_low _ x y _, by simp [encode]⟩
  | ldI nnn => exact ⟨_, _, rfl, rowDecodes_ldI, nnn_and_mask _ nnn, by simp [encode]⟩
  | jpV0 nnn => exact ⟨_, _, rfl, rowDecodes_jpV0, nnn_and_mask _ nnn, by simp [encode]⟩
  | rnd x kk => exact ⟨_, _, rfl, rowDecodes_rnd, xkk_and_mask _ x kk, by simp [encode]⟩
  | drw x y n => exact ⟨_, _, rfl, rowDecodes_drw, xyn_and_mask _ x y n, by simp [encode]⟩
  | skp x => exact ⟨_, _, rfl, rowDecodes_skp, xkk_and_mask_byte _ x _, by simp [encode]⟩
  | sknp x => exact ⟨_, _, rfl, rowDecodes_sknp, xkk_and_mask_byte _ x _, by simp [encode]⟩
  | ldVxDt x => exact ⟨_, _, rfl, rowDecodes_ldVxDt, xkk_and_mask_byte _ x _, by simp [encode]⟩
  | ldDtVx x => exact ⟨_, _, rfl, rowDecodes_ldDtVx, xkk_and_mask_byte _ x _, by simp [encode]⟩
  | ldStVx x => exact ⟨_, _, rfl, rowDecodes_ldStVx, xkk_and_mask_byte _ x _, by simp [encode]⟩
  | ldVxK x => exact ⟨_, _, rfl, rowDecodes_ldVxK, xkk_and_mask_byte _ x _, by simp [encode]⟩
  | addI x => exact ⟨_, _, rfl, rowDecodes_addI, xkk_and_mask_byte _ x _, by simp [encode]⟩
  | ldF x => exact ⟨_, _, rfl, rowDecodes_ldF, xkk_and_mask_byte _ x _, by simp [encode]⟩
  | ldB x => exact ⟨_, _, rfl, rowDecodes_ldB, xkk_and_mask_byte _ x _, by simp [encode]⟩
  | stRegs x => exact ⟨_, _, rfl, rowDecodes_stRegs, xkk_and_mask_byte _ x _, by simp [encode]⟩
  | ldRegs x => exact ⟨_, _, rfl, rowDecodes_ldRegs, xkk_and_mask_byte _ x _, by simp [encode]⟩

/-! ### Decoding an encoding -/

theorem decode_encode (i : Instr) : decode (encode i) = .ok i := by
  obtain ⟨r, mk, -, hdecodes, hword, hmk⟩ := ownRow i
  rw [hdecodes _ hword, hmk]

/-- The two bytes of an opcode, high byte first, decode as the opcode does (20_memory.md R56). -/
theorem decodeBytes_of_decode {op : Word} {i : Instr} (h : decode op = .ok i) (rest : List Byte) :
    decodeBytes (op.extractLsb' 8 8 :: op.extractLsb' 0 8 :: rest) = .ok (i, rest) := by
  simp only [decodeBytes, opcodeOf_bytes, h]

/-- Settles O56: the word of an instruction matches the instruction's row, and the fields of that row give the operands
back. -/
theorem decodeOfEncode : Obligations.DecodeOfEncode := fun i =>
  ⟨i.wellFormed_all, decode_encode i, decodeBytes_of_decode (decode_encode i)⟩

/-! ### Encoding what was decoded -/

section
variable {op : Word} {i : Instr}

/-- The high nibble with the rest of its format is the word (30_encoding.md R73). -/
theorem word_of_high_nnn {high : BitVec 4} (h : (opHigh op).toNat = high.toNat) : high ++ opNNN op = op := by
  rw [← BitVec.eq_of_toNat_eq h, word_nnn]

theorem word_of_high_xkk {high : BitVec 4} (h : (opHigh op).toNat = high.toNat) : high ++ opX op ++ opKK op = op := by
  rw [← BitVec.eq_of_toNat_eq h, word_xkk]

theorem word_of_high_byte {high : BitVec 4} {low : Byte} (h : (opHigh op).toNat = high.toNat)
    (hk : (opKK op).toNat = low.toNat) : high ++ opX op ++ low = op := by
  rw [← BitVec.eq_of_toNat_eq hk, word_of_high_xkk h]

theorem word_of_high_xyn {high : BitVec 4} (h : (opHigh op).toNat = high.toNat) :
    high ++ opX op ++ opY op ++ opN op = op := by
  rw [← BitVec.eq_of_toNat_eq h, word_xyn]

theorem word_of_high_low {high low : BitVec 4} (h : (opHigh op).toNat = high.toNat)
    (hn : (opN op).toNat = low.toNat) : high ++ opX op ++ opY op ++ low = op := by
  rw [← BitVec.eq_of_toNat_eq hn, word_of_high_xyn h]

theorem encode_of_decode0 (h : (opHigh op).toNat = (0x0#4).toNat) (hd : decode0 op = some i) : encode i = op := by
  have hword {low : BitVec 12} (hl : (opNNN op).toNat = low.toNat) : 0x0#4 ++ low = op := by
    rw [← BitVec.eq_of_toNat_eq hl, word_of_high_nnn h]
  unfold decode0 at hd
  split at hd <;> cases hd
  · next hl => exact hword (low := 0x0E0#12) hl
  · next hl => exact hword (low := 0x0EE#12) hl

theorem encode_of_decode8 (h : (opHigh op).toNat = (0x8#4).toNat) (hd : decode8 op = some i) : encode i = op := by
  unfold decode8 at hd
  split at hd <;> cases hd <;> exact word_of_high_low h ‹_›

theorem encode_of_decodeE (h : (opHigh op).toNat = (0xE#4).toNat) (hd : decodeE op = some i) : encode i = op := by
  unfold decodeE at hd
  split at hd <;> cases hd <;> exact word_of_high_byte h ‹_›

theorem encode_of_decodeF (h : (opHigh op).toNat = (0xF#4).toNat) (hd : decodeF op = some i) : encode i = op := by
  unfold decodeF at hd
  split at hd <;> cases hd <;> exact word_of_high_byte h ‹_›

theorem encode_of_decodeXY0_seReg (h : (opHigh op).toNat = (0x5#4).toNat) (hd : decodeXY0 .seReg op = some i) :
    encode i = op := by
  unfold decodeXY0 at hd
  split at hd <;> cases hd
  exact word_of_high_low h ‹_›

theorem encode_of_decodeXY0_sneReg (h : (opHigh op).toNat = (0x9#4).toNat) (hd : decodeXY0 .sneReg op = some i) :
    encode i = op := by
  unfold decodeXY0 at hd
  split at hd <;> cases hd
  exact word_of_high_low h ‹_›

/-- The opcode map drops no bit of the word (30_encoding.md R71, R76). -/
theorem encode_of_decodeRow (hd : decodeRow op = some i) : encode i = op := by
  unfold decodeRow at hd
  split at hd
  case h_1 h => exact encode_of_decode0 h hd
  case h_2 h => cases hd; exact word_of_high_nnn (high := 0x1#4) h
  case h_3 h => cases hd; exact word_of_high_nnn (high := 0x2#4) h
  case h_4 h => cases hd; exact word_of_high_xkk (high := 0x3#4) h
  case h_5 h => cases hd; exact word_of_high_xkk (high := 0x4#4) h
  case h_6 h => exact encode_of_decodeXY0_seReg h hd
  case h_7 h => cases hd; exact word_of_high_xkk (high := 0x6#4) h
  case h_8 h => cases hd; exact word_of_high_xkk (high := 0x7#4) h
  case h_9 h => exact encode_of_decode8 h hd
  case h_10 h => exact encode_of_decodeXY0_sneReg h hd
  case h_11 h => cases hd; exact word_of_high_nnn (high := 0xA#4) h
  case h_12 h => cases hd; exact word_of_high_nnn (high := 0xB#4) h
  case h_13 h => cases hd; exact word_of_high_xkk (high := 0xC#4) h
  case h_14 h => cases hd; exact word_of_high_xyn (high := 0xD#4) h
  case h_15 h => exact encode_of_decodeE h hd
  case h_16 =>
    have h : (opHigh op).toNat = 15 := by
      have := (opHigh op).isLt
      grind
    exact encode_of_decodeF h hd

theorem decodeRow_of_decode (h : decode op = .ok i) : decodeRow op = some i := by
  unfold decode at h
  split at h <;> cases h
  assumption

end

/-- Settles O57, family by family of the opcode map. -/
theorem encodeOfDecode : Obligations.EncodeOfDecode := fun _ _ h => encode_of_decodeRow (decodeRow_of_decode h)

/-! ### The decoder and the table -/

/-- A row answers for its words: each decodes to an instruction of the row. -/
def RowAnswers (r : OpRow) : Prop :=
  ∀ op, op &&& r.mask = r.value → ∃ i, decode op = .ok i ∧ opcodeTable[i.row - 1]? = some r

theorem RowDecodes.answers {r : OpRow} {mk : Word → Instr} (h : RowDecodes r.mask r.value mk)
    (hrow : ∀ op, opcodeTable[(mk op).row - 1]? = some r) : RowAnswers r :=
  fun op hop => ⟨mk op, h op hop, hrow op⟩

theorem opcodeTableA_answers : ∀ r ∈ opcodeTableA, RowAnswers r :=
  List.forall_iff_forall_mem.mp
    ⟨rowDecodes_cls.answers fun _ => rfl, rowDecodes_ret.answers fun _ => rfl, rowDecodes_jp.answers fun _ => rfl,
      rowDecodes_call.answers fun _ => rfl, rowDecodes_seImm.answers fun _ => rfl,
      rowDecodes_sneImm.answers fun _ => rfl, rowDecodes_seReg.answers fun _ => rfl,
      rowDecodes_sneReg.answers fun _ => rfl, rowDecodes_ldImm.answers fun _ => rfl,
      rowDecodes_addImm.answers fun _ => rfl, rowDecodes_ldReg.answers fun _ => rfl,
      rowDecodes_orReg.answers fun _ => rfl, rowDecodes_andReg.answers fun _ => rfl,
      rowDecodes_xorReg.answers fun _ => rfl, rowDecodes_addReg.answers fun _ => rfl,
      rowDecodes_sub.answers fun _ => rfl, rowDecodes_shr.answers fun _ => rfl⟩

theorem opcodeTableB_answers : ∀ r ∈ opcodeTableB, RowAnswers r :=
  List.forall_iff_forall_mem.mp
    ⟨rowDecodes_subn.answers fun _ => rfl, rowDecodes_shl.answers fun _ => rfl, rowDecodes_ldI.answers fun _ => rfl,
      rowDecodes_jpV0.answers fun _ => rfl, rowDecodes_rnd.answers fun _ => rfl, rowDecodes_drw.answers fun _ => rfl,
      rowDecodes_skp.answers fun _ => rfl, rowDecodes_sknp.answers fun _ => rfl,
      rowDecodes_ldVxDt.answers fun _ => rfl, rowDecodes_ldDtVx.answers fun _ => rfl,
      rowDecodes_ldStVx.answers fun _ => rfl, rowDecodes_ldVxK.answers fun _ => rfl,
      rowDecodes_addI.answers fun _ => rfl, rowDecodes_ldF.answers fun _ => rfl, rowDecodes_ldB.answers fun _ => rfl,
      rowDecodes_stRegs.answers fun _ => rfl, rowDecodes_ldRegs.answers fun _ => rfl⟩

theorem opcodeTable_answers : ∀ r ∈ opcodeTable, RowAnswers r :=
  List.forall_mem_append.mpr ⟨opcodeTableA_answers, opcodeTableB_answers⟩

/-- A word that decodes matches the row of its instruction. -/
theorem matches_of_decode {op : Word} {i : Instr} (h : decode op = .ok i) :
    ∃ r, opcodeTable[i.row - 1]? = some r ∧ op &&& r.mask = r.value := by
  obtain ⟨r, mk, hrow, -, hword, -⟩ := ownRow i
  exact ⟨r, hrow, encodeOfDecode op i h ▸ hword⟩

/-- A decode error is a word that matches no row (30_encoding.md R78). -/
theorem decode_error_iff (op : Word) :
    decode op = .error (.decodeError op) ↔ ∀ r ∈ opcodeTable, op &&& r.mask ≠ r.value := by
  constructor
  · intro h r hr hop
    obtain ⟨i, hi, -⟩ := opcodeTable_answers r hr op hop
    rw [h] at hi
    cases hi
  · intro h
    cases hd : decodeRow op with
    | none => rw [decode, hd]
    | some i =>
      obtain ⟨r, hr, hop⟩ := matches_of_decode (decode_of_decodeRow hd)
      exact absurd hop (h r (List.mem_of_getElem? hr))

/-- Settles O58: a decoded word matches its instruction's row, and any row it matches is the row of what it decodes
to. -/
theorem decoderAgreesWithOpcodeTable : Obligations.DecoderAgreesWithOpcodeTable := by
  refine fun op => ⟨fun i h => ?_, decode_error_iff op⟩
  obtain ⟨r, hr, hop⟩ := matches_of_decode h
  refine ⟨r, hr, hop, fun r' hr' hop' => ?_⟩
  obtain ⟨j, hj, hrow⟩ := opcodeTable_answers r' hr' op hop'
  obtain rfl : i = j := Except.ok.inj (h.symm.trans hj)
  exact Option.some.inj (hrow.symm.trans hr)

/-- Settles O59: nine closed words, each run through the decoder. -/
theorem specWordsDecode : Obligations.SpecWordsDecode := by
  unfold Obligations.SpecWordsDecode
  decide

end Sys2Proof.Machine
end

section
/-! PROOFS. What each instruction does where its check passes: a frame for each state operation, and from it a rule for
each kind of meaning. The statements about one instruction follow from these rules. -/

namespace Sys2Proof.Machine

/-! ### Frames of the state operations -/

/-- The flag pair writes `V[x]` and VF (43_register_alu.md R183). -/
theorem frame_setRegFlag_advance (s : State) (x : Reg) (v : Byte) (c : Bool) :
    Frame { regs := fun r => r == x || r == vf } s (s.setRegFlag x v c).advance :=
  { frame_setPc s (s.pc + 2) with
    regs := fun r h => by
      obtain ⟨hx, hvf⟩ := Bool.or_eq_false_iff.mp h
      rw [State.reg_advance, State.reg_setRegFlag, if_neg (ne_of_beq_false hvf), if_neg (ne_of_beq_false hx)] }

/-- A draw replaces the buffer and writes VF (41_display.md R104). -/
theorem frame_setFb_setReg_advance (s : State) (fb : Screen) (v : Byte) :
    Frame { screen := true, regs := fun r => r == vf } s ((s.setFb fb).setReg vf v).advance :=
  { frame_setPc s (s.pc + 2) with
    regs := fun _ h => State.reg_setReg_ne (s.setFb fb) v (ne_of_beq_false h)
    screen := fun h => absurd h Bool.noConfusion }

theorem frame_loadRegs_advance (s : State) (x : Reg) : Frame { regs := upTo x } s (s.loadRegs x).advance :=
  { frame_setPc s (s.pc + 2) with
    regs := fun r h => by rw [State.reg_advance, State.reg_loadRegs, if_neg (of_decide_eq_false h)] }

theorem frame_setDt_advance (s : State) (v : Byte) : Frame { delay := true } s (s.setDt v).advance :=
  { frame_setPc s (s.pc + 2) with delay := fun h => absurd h Bool.noConfusion }

theorem frame_setSt_advance (s : State) (v : Byte) : Frame { sound := true } s (s.setSt v).advance :=
  { frame_setPc s (s.pc + 2) with sound := fun h => absurd h Bool.noConfusion }

/-- The wait leaves `pc` too, unlike every other frame here (45_keys_timers.md R245). -/
theorem frame_beginWait (s : State) (x : Reg) : Frame { wait := true } s (s.beginWait x) :=
  { frame_setPc s s.pc with wait := fun h => absurd h Bool.noConfusion }

theorem frame_push_setPc (s : State) (v w : Word) (h : s.sp.val < 16) :
    Frame { stack := true } s ((s.push v h).setPc w) :=
  { frame_setPc s w with stack := fun h => absurd h Bool.noConfusion }

theorem frame_popped_setPc (s : State) (w : Word) : Frame { stack := true } s (s.popped.setPc w) :=
  { frame_setPc s w with stack := fun h => absurd h Bool.noConfusion }

/-- A store changes no byte outside the block it writes (20_memory.md R54, R57). -/
theorem frame_store_advance (s : State) (a : Nat) (bytes : List Byte) :
    Frame { memory := storedBytes a bytes.length } s (s.store a bytes).advance :=
  { frame_setPc s (s.pc + 2) with
    memory := fun b h => Memory.read_writeBytes_outside s.mem a bytes b fun hin => by
      simp [storedBytes, hin] at h }

/-! ### From a meaning to its rule -/

/-- An instruction has one outcome, so what its rule says holds of the state it answers. -/
theorem RunsTo.of_exec {i : Instr} {s t : State} {c : Changes} {pc : Word} {post : State → Prop}
    (h : RunsTo i s c pc post) (hx : exec i s = .next t) : t.pc = pc ∧ Frame c s t ∧ post t := by
  obtain ⟨u, hu, hrest⟩ := h
  rw [hx] at hu
  cases hu
  exact hrest

/-- An instruction that writes `V[x]`, then VF: the flag is what VF holds, the value what `V[x]` holds unless it is VF
(43_register_alu.md R183). -/
theorem runsTo_of_exec_setRegFlag {i : Instr} {s : State} {x : Reg} {v : Byte} {c : Bool} {post : State → Prop}
    (hx : exec i s = .next (s.setRegFlag x v c).advance)
    (hp : ∀ t : State, (x ≠ vf → t.reg x = v) → t.reg vf = flagByte c → post t) :
    RunsTo i s { regs := fun r => r == x || r == vf } (s.pc + 2) post :=
  ⟨(s.setRegFlag x v c).advance, hx, rfl, frame_setRegFlag_advance s x v c,
    hp _ (fun hne => by simp [State.reg_setRegFlag, hne]) (by simp [State.reg_setRegFlag])⟩

/-! ### Skips and the jump through V0 -/

theorem exec_seReg_skips (x y : Reg) (s : State) :
    exec (.seReg x y) s = .next (s.setPc (if s.reg x = s.reg y then s.pc + 4 else s.pc + 2)) := by
  simp only [exec, execSeReg, done, State.skipIf, beq_iff_eq]

theorem exec_sneReg_skips (x y : Reg) (s : State) :
    exec (.sneReg x y) s = .next (s.setPc (if s.reg x = s.reg y then s.pc + 2 else s.pc + 4)) := by
  simp only [exec, execSneReg, done, State.skipIf, bne_iff_ne, ne_eq, ite_not]

/-- Settles O9: each skip is one write of `pc`, for `x = y` as well. -/
theorem registerSkips : Obligations.RegisterSkips :=
  ⟨rowDecodes_seReg, rowDecodes_sneReg, fun x y s =>
    ⟨runsTo_of_exec_setPc (exec_seReg_skips x y s) trivial, runsTo_of_exec_setPc (exec_sneReg_skips x y s) trivial⟩⟩

theorem exec_jpV0_setPc (nnn : BitVec 12) (s : State) :
    exec (.jpV0 nnn) s = .next (s.setPc (nnn.setWidth 16 + (s.reg 0).setWidth 16)) := rfl

/-- A 12-bit address plus a byte stays below 65536, so the jump is not truncated (42_control_flow.md R141). -/
theorem toNat_nnn_add_byte (nnn : BitVec 12) (v : Byte) :
    (nnn.setWidth 16 + v.setWidth 16).toNat = nnn.toNat + v.toNat := by
  have hnnn := nnn.isLt
  have hv := v.isLt
  rw [BitVec.toNat_add, toNat_setWidth_nnn, BitVec.toNat_setWidth_of_le (by decide)]
  omega

/-- Settles O10: the sum of the two operands fits in `pc`. -/
theorem jumpThroughV0 : Obligations.JumpThroughV0 :=
  ⟨rowDecodes_jpV0, fun nnn s => runsTo_of_exec_setPc (exec_jpV0_setPc nnn s) (toNat_nnn_add_byte nnn (s.reg 0))⟩

/-- The key skips on the number of a key (45_keys_timers.md R240, R241). -/
theorem exec_keySkips {x k : Reg} {s : State} (h : (s.reg x).toNat = k.toNat) :
    exec (.skp x) s = .next (s.setPc (if s.key k = true then s.pc + 4 else s.pc + 2)) ∧
    exec (.sknp x) s = .next (s.setPc (if s.key k = true then s.pc + 2 else s.pc + 4)) := by
  have hk : k.toNat < 16 := k.isLt
  have hcode : (s.reg x).setWidth 4 = k := by
    apply BitVec.eq_of_toNat_eq
    rw [BitVec.toNat_setWidth, h]
    exact Nat.mod_eq_of_lt hk
  rw [exec_skp_skips x s (by omega), exec_sknp_skips x s (by omega), hcode]
  cases s.key k <;> exact ⟨rfl, rfl⟩

/-- Settles O31: a register that holds a key's number names that key's code. -/
theorem keySkips : Obligations.KeySkips := fun _ _ _ h =>
  ⟨runsTo_of_exec_setPc (exec_keySkips h).1 trivial, runsTo_of_exec_setPc (exec_keySkips h).2 trivial⟩

/-! ### The call stack -/

theorem runsTo_call (nnn : BitVec 12) (s : State) (h : s.sp.val < 16) :
    RunsTo (.call nnn) s { stack := true } (nnn.setWidth 16) fun t =>
      t.sp.val = s.sp.val + 1 ∧ t.stack[s.sp.val]? = some s.pc ∧ ∀ j < 16, j ≠ s.sp.val → t.stack[j]? = s.stack[j]? :=
  ⟨_, exec_call_pushes nnn s h, rfl, frame_push_setPc s _ _ h, rfl, by simp,
    fun _ _ hne => Vector.getElem?_set_ne h hne.symm⟩

/-- Settles O11: below 16 entries the push has a place. -/
theorem callPushesItsAddress : Obligations.CallPushesItsAddress := ⟨rowDecodes_call, runsTo_call⟩

theorem runsTo_ret {s : State} {e : Word} (h : 0 < s.sp.val) (he : s.stack[s.sp.val - 1]? = some e) :
    RunsTo .ret s { stack := true } (e + 2) fun t => t.sp.val = s.sp.val - 1 ∧ t.stack = s.stack := by
  have htop : s.stackTop h = e := by
    obtain ⟨_, hget⟩ := Vector.getElem?_eq_some_iff.mp he
    exact hget
  exact ⟨_, exec_ret_pops s h, by rw [htop]; rfl, frame_popped_setPc s _, rfl, rfl⟩

/-- Settles O12: above 0 entries the pop has one to read, and leaves it in its place. -/
theorem returnPopsPastTheCall : Obligations.ReturnPopsPastTheCall := ⟨rowDecodes_ret, fun _ _ => runsTo_ret⟩

/-- Settles O13: the return finds the call's own address on top, whatever lies above. -/
theorem returnResumesAfterTheCall : Obligations.ReturnResumesAfterTheCall := by
  intro nnn s t u hsp hcall hu hbelow
  obtain ⟨-, -, htsp, hpushed, hkept⟩ := (runsTo_call nnn s hsp).of_exec hcall
  have husp : u.sp.val = s.sp.val + 1 := by rw [hu, htsp]
  have htop : u.stack[u.sp.val - 1]? = some s.pc := by
    rw [husp, Nat.add_sub_cancel, hbelow _ (by omega), hpushed]
  obtain ⟨w, hw, hpc, -, hwsp, hwstack⟩ := runsTo_ret (by omega) htop
  refine ⟨w, hw, hpc, Fin.ext (by omega), fun j hj => ?_⟩
  rw [hwstack, hbelow j (by omega), hkept j (by omega) (by omega)]

/-! ### Registers and arithmetic -/

/-- Settles O16: each meaning is one register write, of a value known as a number or bit by bit. -/
theorem addImmediateAndLogic : Obligations.AddImmediateAndLogic := by
  refine fun x y kk s => ⟨runsTo_of_exec_setReg rfl fun t ht => ?_, runsTo_of_exec_setReg rfl fun t ht b _ => ?_,
    runsTo_of_exec_setReg rfl fun t ht b _ => ?_, runsTo_of_exec_setReg rfl fun t ht b _ => ?_⟩
  · rw [ht, BitVec.toNat_add]
  · rw [ht, BitVec.getLsbD_or]
  · rw [ht, BitVec.getLsbD_and]
  · rw [ht, BitVec.getLsbD_xor]

theorem flagByte_decide (p : Prop) [Decidable p] : flagByte (decide p) = if p then 1 else 0 := by
  simp only [flagByte, decide_eq_true_eq]

/-- Settles O17: both operands are read before the sum is written, and the carry is written last. -/
theorem addWithCarry : Obligations.AddWithCarry := fun x y s =>
  runsTo_of_exec_setRegFlag rfl fun t hx hflag =>
    ⟨fun hne => by rw [hx hne, BitVec.toNat_add], hflag.trans (flagByte_decide _)⟩

/-- A difference of bytes, counted up from 256 so that it is no truncated subtraction. -/
theorem toNat_sub_byte (a b : Byte) : (a - b).toNat = (a.toNat + 256 - b.toNat) % 256 := by
  have hb := b.isLt
  rw [BitVec.toNat_sub]
  omega

/-- Settles O18: as O17, with the comparison of the old operands for the flag. -/
theorem subtractWithNoBorrow : Obligations.SubtractWithNoBorrow := fun x y s =>
  ⟨runsTo_of_exec_setRegFlag rfl fun t hx hflag =>
      ⟨fun hne => by rw [hx hne, toNat_sub_byte], hflag.trans (flagByte_decide _)⟩,
    runsTo_of_exec_setRegFlag rfl fun t hx hflag =>
      ⟨fun hne => by rw [hx hne, toNat_sub_byte], hflag.trans (flagByte_decide _)⟩⟩

theorem toNat_flagByte_getLsbD (v : Byte) (k : Nat) : (flagByte (v.getLsbD k)).toNat = v.toNat / 2 ^ k % 2 := by
  rw [BitVec.getLsbD, Nat.testBit_eq_decide_div_mod_eq, flagByte_decide]
  split <;> simp <;> omega

/-- Settles O19: the bit a shift drops is a digit of the old value, and neither meaning reads `y`. -/
theorem shiftsByOne : Obligations.ShiftsByOne := by
  refine fun x y y' s => ⟨runsTo_of_exec_setRegFlag rfl fun t hx hflag => ⟨fun hne => ?_, ?_⟩,
    runsTo_of_exec_setRegFlag rfl fun t hx hflag => ⟨fun hne => ?_, ?_⟩, rfl, rfl⟩
  · rw [hx hne, BitVec.toNat_ushiftRight, Nat.shiftRight_eq_div_pow, Nat.pow_one]
  · rw [hflag, shiftRightFlag, toNat_flagByte_getLsbD, Nat.pow_zero, Nat.div_one]
  · rw [hx hne, BitVec.toNat_shiftLeft, Nat.shiftLeft_eq, Nat.pow_one]
  · have hlt := (s.reg x).isLt
    rw [hflag, shiftLeftFlag, toNat_flagByte_getLsbD]
    omega

/-- Settles O21: masking with `kk` leaves no bit of its complement. -/
theorem randomByteIsMasked : Obligations.RandomByteIsMasked := fun x kk s =>
  runsTo_of_exec_setReg rfl fun t ht =>
    ⟨ht, by rw [ht, BitVec.and_assoc, BitVec.and_not_self]; exact BitVec.and_zero⟩

theorem State.setReg_setReg_same (s : State) (x : Reg) (v w : Byte) : (s.setReg x v).setReg x w = s.setReg x w := by
  simp [State.setReg]

theorem State.setReg_comm (s : State) {x y : Reg} (v w : Byte) (h : x ≠ y) :
    (s.setReg x v).setReg y w = (s.setReg y w).setReg x v := by
  simp only [State.setReg, Vector.set_comm _ _ (reg_toNat_ne h.symm)]

/-- The flag is written over whatever VF held (43_register_alu.md R183; decision D9). -/
theorem State.setRegFlag_setReg_vf (s : State) {x : Reg} (v w : Byte) (c : Bool) (hx : x ≠ vf) :
    (s.setReg vf v).setRegFlag x w c = s.setRegFlag x w c := by
  simp only [State.setRegFlag, State.setReg_comm s v w hx.symm, State.setReg_setReg_same]

/-- Settles O20: the operands are not VF, and what VF held is overwritten. -/
theorem flagIgnoresOldVF : Obligations.FlagIgnoresOldVF := by
  intro x y v s hx hy
  simp only [exec, execAddReg, execSub, execSubn, State.reg_setReg_ne s v hx, State.reg_setReg_ne s v hy,
    State.setRegFlag_setReg_vf s v _ _ hx, and_self]

/-! ### The index register and memory -/

/-- Settles O25: one write of `I`, of a 16-bit sum. -/
theorem indexAdd : Obligations.IndexAdd := by
  refine fun x s => runsTo_of_exec_setIndex rfl fun t ht => ?_
  rw [ht, BitVec.toNat_add, zextByte, BitVec.toNat_setWidth_of_le (by decide)]

/-- An instruction that stores `n` bytes leaves them in memory, in order, and no other byte changed (20_memory.md
R57). -/
theorem runsTo_of_exec_store {i : Instr} {s : State} {a n : Nat} {bytes : List Byte} {post : State → Prop}
    (hx : exec i s = .next (s.store a bytes).advance) (hn : bytes.length = n)
    (hp : ∀ t : State, (∀ k < n, t.mem.read (a + k) = bytes.getD k 0) → post t) :
    RunsTo i s { memory := storedBytes a n } (s.pc + 2) post := by
  subst hn
  refine ⟨_, hx, rfl, frame_store_advance s a bytes, hp _ fun k hk => ?_⟩
  rw [State.advance_mem, State.store_mem, Memory.read_writeBytes, if_pos (by omega), Nat.add_sub_cancel_left]

/-- Settles O26: each digit fits its byte. -/
theorem decimalDigitsAreStored : Obligations.DecimalDigitsAreStored := by
  refine fun x s h => runsTo_of_exec_store (exec_ldB_stores x s h) (length_bcdDigits _) fun t ht => ?_
  have hv := (s.reg x).isLt
  have hhundreds : t.mem.read s.index.toNat = BitVec.ofNat 8 ((s.reg x).toNat / 100) := ht 0 (by decide)
  have htens : t.mem.read (s.index.toNat + 1) = BitVec.ofNat 8 ((s.reg x).toNat / 10 % 10) := ht 1 (by decide)
  have hones : t.mem.read (s.index.toNat + 2) = BitVec.ofNat 8 ((s.reg x).toNat % 10) := ht 2 (by decide)
  rw [hhundreds, htens, hones, BitVec.toNat_ofNat, BitVec.toNat_ofNat, BitVec.toNat_ofNat]
  omega

theorem runsTo_stRegs (x : Reg) (s : State) (h : s.index.toNat + x.toNat < 4096) :
    RunsTo (.stRegs x) s { memory := storedBytes s.indexAddr (x.toNat + 1) } (s.pc + 2) fun t =>
      ∀ k : Reg, k.toNat ≤ x.toNat → t.mem.read (s.index.toNat + k.toNat) = s.reg k :=
  runsTo_of_exec_store (exec_stRegs_stores x s h) (s.length_regBlock x) fun _ ht k hk =>
    (ht k.toNat (Nat.lt_succ_of_le hk)).trans (s.getD_regBlock x k hk 0)

/-- Settles O27: byte `k` of the stored block is register `k`. -/
theorem registerBlockIsStored : Obligations.RegisterBlockIsStored := runsTo_stRegs

theorem runsTo_ldRegs (x : Reg) (s : State) (h : s.index.toNat + x.toNat < 4096) :
    RunsTo (.ldRegs x) s { regs := upTo x } (s.pc + 2) fun t =>
      ∀ k : Reg, k.toNat ≤ x.toNat → t.reg k = s.mem.read (s.index.toNat + k.toNat) :=
  ⟨_, exec_ldRegs_loads x s h, rfl, frame_loadRegs_advance s x, fun k hk => by
    rw [State.reg_advance, State.reg_loadRegs, if_pos hk, State.indexAddr]⟩

/-- Settles O28: the registers above `x` are outside the block. -/
theorem registerBlockIsLoaded : Obligations.RegisterBlockIsLoaded := runsTo_ldRegs

/-- Settles O29: the load reads at the addresses the store wrote. -/
theorem storedBlockLoadsBack : Obligations.StoredBlockLoadsBack := by
  intro x s t u h hst hmem hindex
  obtain ⟨-, hframe, hstored⟩ := (runsTo_stRegs x s h).of_exec hst
  have hu : u.index = s.index := hindex.trans (hframe.index rfl)
  obtain ⟨w, hw, -, hframe', hloaded⟩ := runsTo_ldRegs x u (by rwa [hu])
  refine ⟨w, hw, fun r => ?_⟩
  split
  · next hr => rw [hloaded r hr, hmem, hu, hstored r hr]
  · next hr => exact hframe'.regs r (decide_eq_false hr)

/-! ### Fetching -/

/-- The fetch joins the bytes at `pc` and `pc + 1`, the first the high one (20_memory.md R56). -/
theorem fetch_bigEndian {s : State} (hlo : 512 ≤ s.pc.toNat) (hhi : s.pc.toNat + 1 < 4096) :
    ∃ op, s.fetch = some op ∧
      op.toNat = (s.mem.read s.pc.toNat).toNat * 256 + (s.mem.read (s.pc.toNat + 1)).toNat :=
  ⟨_, if_pos ⟨hlo, hhi⟩, toNat_append _ _⟩

/-- The fetch is in range exactly where it answers a word (20_memory.md R56). -/
theorem fetch_range {s : State} {op : Word} (h : s.fetch = some op) : 512 ≤ s.pc.toNat ∧ s.pc.toNat + 1 < 4096 := by
  unfold State.fetch at h
  split at h
  · assumption
  · cases h

/-- Settles O30: both bytes of the opcode lie in the stored block. -/
theorem storedOpcodeIsFetched : Obligations.StoredOpcodeIsFetched := by
  intro x k s t u h hk hst hmem hpc hlo
  obtain ⟨-, -, hstored⟩ := (runsTo_stRegs x s h).of_exec hst
  have hx : x.toNat < 16 := x.isLt
  have hsucc : (k + 1).toNat = k.toNat + 1 := by
    rw [BitVec.toNat_add]
    exact Nat.mod_eq_of_lt (by simp; omega)
  obtain ⟨op, hop, hval⟩ := fetch_bigEndian hlo (by omega)
  refine ⟨op, hop, ?_⟩
  rw [hval, hmem, hpc, hstored k (by omega), Nat.add_assoc, ← hsucc, hstored (k + 1) (by omega)]

/-! ### Keys -/

/-- Settles O35: the one meaning that does not advance. -/
theorem keyWaitBegins : Obligations.KeyWaitBegins := fun x s =>
  ⟨s.beginWait x, rfl, rfl, frame_beginWait s x, rfl, rfl⟩

end Sys2Proof.Machine
end

section
/-! PROOFS. The draw statements: the lit indices of the rasterizer are the cells `Lit` names, so a draw toggles exactly
those and collides exactly on those that were on (41_display.md R101 to R106). -/

namespace Sys2Proof.Machine

/-- The indices the rasterizer plots are the ones the spec's table of pixels gives (41_display.md R101, R102). -/
theorem mem_litIndices_iff_lit (s : State) (x y : Reg) (n : BitVec 4) (j : Nat) :
    j ∈ litIndices (s.reg x).toNat (s.reg y).toNat 0 (s.mem.readBytes s.indexAddr n.toNat) ↔ Lit s x y n j := by
  simp only [mem_litIndices, Memory.getElem?_readBytes, Option.ite_none_right_eq_some, Option.some.injEq, spriteBit,
    pixelIndex, Nat.zero_add, State.indexAddr, Config.fbWidth]
  constructor
  · rintro ⟨r, c, hc, ⟨_, ⟨hr, rfl⟩, hbit⟩, hj⟩
    exact ⟨r, c, hr, hc, hbit, hj⟩
  · rintro ⟨r, c, hr, hc, hbit, hj⟩
    exact ⟨r, c, hc, ⟨_, ⟨hr, rfl⟩, hbit⟩, hj⟩

/-- What a draw that completes does: it toggles the drawn cells, and VF is the flag of a drawn cell that was on. -/
theorem runsTo_drw (x y : Reg) (n : BitVec 4) (s : State) (h : n = 0 ∨ s.index.toNat + n.toNat ≤ 4096) :
    RunsTo (.drw x y n) s { screen := true, regs := fun r => r == vf } (s.pc + 2) fun t =>
      (∀ j < 2048, (t.fb.cell j = true ↔ (s.fb.cell j = true ↔ ¬ Lit s x y n j))) ∧
      (t.reg vf = 1 ↔ ∃ j < 2048, Lit s x y n j ∧ s.fb.cell j = true) ∧ (t.reg vf = 0 ∨ t.reg vf = 1) := by
  refine ⟨_, exec_drw_draws x y n s h, rfl, frame_setFb_setReg_advance s _ _, fun j hj => ?_, ?_⟩
  · rw [State.advance_fb, State.setReg_fb, State.setFb_fb, cell_drawSprite, ← mem_litIndices_iff_lit]
    by_cases hmem : j ∈ litIndices (s.reg x).toNat (s.reg y).toNat 0 (s.mem.readBytes s.indexAddr n.toNat) <;>
      simp [hj, hmem]
  · rw [State.reg_advance, State.reg_setReg_same, collide_drawSprite]
    have hany : ((litIndices (s.reg x).toNat (s.reg y).toNat 0 (s.mem.readBytes s.indexAddr n.toNat)).any
        fun j => decide (j < 2048) && s.fb.cell j) = true ↔ ∃ j < 2048, Lit s x y n j ∧ s.fb.cell j = true := by
      simp only [List.any_eq_true, mem_litIndices_iff_lit, Bool.and_eq_true, decide_eq_true_eq]
      exact exists_congr fun j => by tauto
    rw [← hany]
    generalize List.any _ _ = c
    cases c <;> decide

/-- Settles O2: the row, and the toggling half of the draw's rule. -/
theorem drawTogglesTheDrawnCells : Obligations.DrawTogglesTheDrawnCells := by
  refine ⟨rowDecodes_drw, fun x y n s h => ?_⟩
  obtain ⟨t, hx, hpc, hframe, htoggles, -⟩ := runsTo_drw x y n s h
  exact ⟨t, hx, hpc, hframe, htoggles⟩

/-- Where VF is no coordinate, a draw overwrites it unread (decision D9). -/
theorem exec_drw_setReg_vf {x y : Reg} (n : BitVec 4) (s : State) (v : Byte) (hx : x ≠ vf) (hy : y ≠ vf)
    (h : n = 0 ∨ s.index.toNat + n.toNat ≤ 4096) : exec (.drw x y n) (s.setReg vf v) = exec (.drw x y n) s := by
  have hover : ∀ (fb : Screen) (w : Byte), ((s.setReg vf v).setFb fb).setReg vf w = (s.setFb fb).setReg vf w :=
    fun fb w => State.setReg_setReg_same (s.setFb fb) vf v w
  rw [exec_drw_draws x y n s h, exec_drw_draws x y n (s.setReg vf v) h, State.reg_setReg_ne s v hx,
    State.reg_setReg_ne s v hy, hover]
  rfl

/-- Settles O3: the flag half of the draw's rule, and VF overwritten unread. -/
theorem collisionFlagIsExact : Obligations.CollisionFlagIsExact := by
  intro x y n s h
  obtain ⟨t, ht, -, -, -, hone, hbit⟩ := runsTo_drw x y n s h
  exact ⟨⟨t, ht, hone.mpr, fun hno => hbit.resolve_right fun h1 => hno (hone.mp h1)⟩,
    fun hx hy v => exec_drw_setReg_vf n s v hx hy h⟩

/-- The drawn cells depend on the coordinates, `I` and memory only. -/
theorem lit_congr {s t : State} {x y : Reg} (n : BitVec 4) (hx : t.reg x = s.reg x) (hy : t.reg y = s.reg y)
    (hindex : t.index = s.index) (hmem : ∀ a, t.mem.read a = s.mem.read a) (j : Nat) :
    Lit t x y n j ↔ Lit s x y n j := by
  simp only [Lit, hx, hy, hindex, hmem]

/-- Settles O4: the second draw has the cells of the first, so each is toggled back, and it was on before the second draw
exactly if it was off before the first. -/
theorem drawTwiceRestoresTheDisplay : Obligations.DrawTwiceRestoresTheDisplay := by
  intro x y n s t h hst hx hy
  obtain ⟨-, hframe, hcells, -⟩ := (runsTo_drw x y n s h).of_exec hst
  have hindex : t.index = s.index := hframe.index rfl
  have hlit := lit_congr n hx hy hindex fun a => hframe.memory a rfl
  obtain ⟨u, hu, -, -, hcells', hone, hbit⟩ := runsTo_drw x y n t (by rwa [hindex])
  refine ⟨u, hu, Screen.eq_of_cell fun j hj => ?_, hone.trans (exists_congr fun j => ?_), hbit⟩
  · rw [Bool.eq_iff_iff, hcells' j hj, hcells j hj, hlit]
    tauto
  · rw [hlit, ← Bool.not_eq_true]
    refine and_congr_right fun hj => and_congr_right fun hl => ?_
    rw [hcells j hj]
    tauto

/-- Settles O5: on the all-off buffer toggling lights, and nothing is there to collide with. -/
theorem clearThenDrawShowsTheSprite : Obligations.ClearThenDrawShowsTheSprite := by
  intro x y n s t h hst
  rw [exec_cls_clears] at hst
  cases hst
  obtain ⟨u, hu, -, -, hcells, hone, hbit⟩ := runsTo_drw x y n (s.setFb Screen.clear).advance h
  have hoff : ∀ j, (s.setFb Screen.clear).advance.fb.cell j = false := Screen.cell_clear
  refine ⟨u, hu, fun j hj => ?_, hbit.resolve_right fun h1 => ?_⟩
  · simp only [hcells j hj, hoff, Bool.false_eq_true, false_iff, not_not]
    exact lit_congr n rfl rfl rfl (fun _ => rfl) j
  · obtain ⟨j, -, -, hon⟩ := hone.mp h1
    exact Bool.false_ne_true ((hoff j).symm.trans hon)

end Sys2Proof.Machine
end

section
/-! PROOFS. The statements over all instructions: the spec's tables of faults, of the next `pc` and of what each
instruction may write, and what no instruction depends on (60_exceptions.md R302, 42_control_flow.md R130, 10_state.md
R23). -/

namespace Sys2Proof.Machine

/-! ### Where the checks fail -/

theorem exec_call_faults (nnn : BitVec 12) {s : State} (h : s.sp.val = 16) :
    exec (.call nnn) s = .next (s.takeFault .stackOverflow (encode (.call nnn))) := by
  simp only [exec, execCall, dif_neg (show ¬ s.sp.val < 16 by omega), raise]

theorem exec_ret_faults {s : State} (h : s.sp.val = 0) :
    exec .ret s = .next (s.takeFault .stackUnderflow (encode .ret)) := by
  simp only [exec, execRet, dif_neg (show ¬ 0 < s.sp.val by omega), raise]

/-- An access with a missing address is not permitted (20_memory.md R55). -/
theorem accessOk_eq_false {a n : Nat} (hn : 0 < n) (h : 4096 < a + n) : accessOk a n = false := by
  rw [← Bool.not_eq_true, accessOk_iff]
  omega

theorem exec_drw_faults (x y : Reg) {n : BitVec 4} {s : State} (hn : 0 < n.toNat)
    (h : 4096 ≤ s.index.toNat + n.toNat - 1) :
    exec (.drw x y n) s = .next (s.takeFault .memRange (encode (.drw x y n))) := by
  have hbad : accessOk s.indexAddr n.toNat = false := accessOk_eq_false hn (by rw [State.indexAddr]; omega)
  simp only [exec, execDrw, hbad, Bool.false_eq_true, if_false, raise]

theorem exec_ldB_faults (x : Reg) {s : State} (h : 4096 ≤ s.index.toNat + 2) :
    exec (.ldB x) s = .next (s.takeFault .memRange (encode (.ldB x))) := by
  have hbad : accessOk s.indexAddr 3 = false := accessOk_eq_false (by decide) (by rw [State.indexAddr]; omega)
  simp only [exec, execLdB, hbad, Bool.false_eq_true, if_false, raise]

theorem accessOk_block_eq_false {x : Reg} {s : State} (h : 4096 ≤ s.index.toNat + x.toNat) :
    accessOk s.indexAddr (blockSize x) = false :=
  accessOk_eq_false (Nat.succ_pos _) (by rw [State.indexAddr, blockSize]; omega)

theorem exec_stRegs_faults {x : Reg} {s : State} (h : 4096 ≤ s.index.toNat + x.toNat) :
    exec (.stRegs x) s = .next (s.takeFault .memRange (encode (.stRegs x))) := by
  simp only [exec, execStRegs, accessOk_block_eq_false h, Bool.false_eq_true, if_false, raise]

theorem exec_ldRegs_faults {x : Reg} {s : State} (h : 4096 ≤ s.index.toNat + x.toNat) :
    exec (.ldRegs x) s = .next (s.takeFault .memRange (encode (.ldRegs x))) := by
  simp only [exec, execLdRegs, accessOk_block_eq_false h, Bool.false_eq_true, if_false, raise]

theorem exec_skp_faults {x : Reg} {s : State} (h : 15 < (s.reg x).toNat) :
    exec (.skp x) s = .next (s.takeFault .keyRange (encode (.skp x))) := by
  simp only [exec, execSkp, keyOperand_eq_none h, raise]

theorem exec_sknp_faults {x : Reg} {s : State} (h : 15 < (s.reg x).toNat) :
    exec (.sknp x) s = .next (s.takeFault .keyRange (encode (.sknp x))) := by
  simp only [exec, execSknp, keyOperand_eq_none h, raise]

theorem cond_of_ite_some {p : Prop} [Decidable p] {a b : Fault} (h : (if p then some a else none) = some b) :
    p ∧ a = b := by
  split at h
  · next hp => exact ⟨hp, Option.some.inj h⟩
  · cases h

theorem not_cond_of_ite_none {p : Prop} [Decidable p] {a : Fault} (h : (if p then some a else none) = none) : ¬ p := by
  split at h
  · cases h
  · assumption

/-- Under the condition of its cause an instruction enters the fault and does nothing else (60_exceptions.md R302,
R303). -/
theorem exec_of_raises {i : Instr} {s : State} {c : Fault} (h : raises i s = some c) :
    exec i s = .next (s.takeFault c (encode i)) := by
  cases i with
  | call nnn => obtain ⟨hp, rfl⟩ := cond_of_ite_some h; exact exec_call_faults nnn hp
  | ret => obtain ⟨hp, rfl⟩ := cond_of_ite_some h; exact exec_ret_faults hp
  | drw x y n => obtain ⟨⟨hn, hp⟩, rfl⟩ := cond_of_ite_some h; exact exec_drw_faults x y hn hp
  | ldB x => obtain ⟨hp, rfl⟩ := cond_of_ite_some h; exact exec_ldB_faults x hp
  | stRegs x => obtain ⟨hp, rfl⟩ := cond_of_ite_some h; exact exec_stRegs_faults hp
  | ldRegs x => obtain ⟨hp, rfl⟩ := cond_of_ite_some h; exact exec_ldRegs_faults hp
  | skp x => obtain ⟨hp, rfl⟩ := cond_of_ite_some h; exact exec_skp_faults hp
  | sknp x => obtain ⟨hp, rfl⟩ := cond_of_ite_some h; exact exec_sknp_faults hp
  | _ => cases h

/-! ### Where they pass: the next `pc` and the frame -/

/-- The instruction completes with the `pc` and the frame of the spec's tables (42_control_flow.md R130, 10_state.md
R23). -/
def Completes (i : Instr) (s : State) : Prop :=
  ∃ t, exec i s = .next t ∧ t.pc.toNat = nextPcOf i s % 65536 ∧ Frame (changesOf i s) s t

/-- An instruction that ends in the PC-advance, which truncates to 16 bits (42_control_flow.md R131). -/
theorem completes_advance {i : Instr} {s u : State} (hx : exec i s = .next u.advance) (hpc : u.pc = s.pc)
    (hframe : Frame (changesOf i s) s u.advance) (hn : nextPcOf i s = s.pc.toNat + 2) : Completes i s := by
  refine ⟨u.advance, hx, ?_, hframe⟩
  rw [State.advance_pc, hpc, hn]
  exact BitVec.toNat_add _ _

theorem nextPcOf_of_skipCondition {i : Instr} {s : State} {b : Bool} (h : skipCondition i s = some b) :
    nextPcOf i s = if b then s.pc.toNat + 4 else s.pc.toNat + 2 := by
  unfold nextPcOf
  split
  case h_6 => rw [h]; cases b <;> rfl
  all_goals cases h

/-- A skip goes where its condition says (42_control_flow.md R132). -/
theorem completes_skipIf {i : Instr} {s : State} {b : Bool} (hx : exec i s = .next (s.skipIf b))
    (hframe : Frame (changesOf i s) s (s.skipIf b)) (hb : skipCondition i s = some b) : Completes i s := by
  refine ⟨s.skipIf b, hx, ?_, hframe⟩
  rw [State.skipIf_pc, nextPcOf_of_skipCondition hb]
  cases b <;> exact BitVec.toNat_add _ _

theorem completes_ret {s : State} (h : 0 < s.sp.val) : Completes .ret s := by
  refine ⟨_, exec_ret_pops s h, ?_, frame_popped_setPc s _⟩
  have hget : s.stack.toList.getD (s.sp.val - 1) 0 = s.stackTop h := by
    have hsp := s.sp.isLt
    simp [State.stackTop, List.getD_eq_getElem?_getD, show s.sp.val - 1 < 16 by omega]
  simp only [State.setPc_pc, nextPcOf, hget]
  exact BitVec.toNat_add _ _

theorem completes_jpV0 (nnn : BitVec 12) (s : State) : Completes (.jpV0 nnn) s := by
  have hnnn := nnn.isLt
  have hv := (s.reg 0).isLt
  refine ⟨_, exec_jpV0_setPc nnn s, ?_, frame_setPc s _⟩
  rw [State.setPc_pc, toNat_nnn_add_byte, nextPcOf]
  omega

/-! ### The checks of an instruction that raises nothing -/

section
variable {s : State} {x y : Reg}

theorem sp_lt_of_not_raises_call {nnn : BitVec 12} (h : raises (.call nnn) s = none) : s.sp.val < 16 := by
  have hne : s.sp.val ≠ 16 := not_cond_of_ite_none h
  omega

theorem sp_pos_of_not_raises_ret (h : raises .ret s = none) : 0 < s.sp.val := Nat.pos_of_ne_zero (not_cond_of_ite_none h)

/-- A sprite of no row has no address to check; the last address of another is `I + n - 1` (41_display.md R104). -/
theorem range_of_not_raises_drw {n : BitVec 4} (h : raises (.drw x y n) s = none) :
    n = 0 ∨ s.index.toNat + n.toNat ≤ 4096 := by
  have hcond : ¬ (0 < n.toNat ∧ 4096 ≤ s.index.toNat + n.toNat - 1) := not_cond_of_ite_none h
  by_cases hn : n.toNat = 0
  · exact .inl (BitVec.eq_of_toNat_eq hn)
  · exact .inr (by omega)

theorem range_of_not_raises_ldB (h : raises (.ldB x) s = none) : s.index.toNat + 2 < 4096 :=
  Nat.lt_of_not_le (not_cond_of_ite_none h)

theorem range_of_not_raises_stRegs (h : raises (.stRegs x) s = none) : s.index.toNat + x.toNat < 4096 :=
  Nat.lt_of_not_le (not_cond_of_ite_none h)

theorem range_of_not_raises_ldRegs (h : raises (.ldRegs x) s = none) : s.index.toNat + x.toNat < 4096 :=
  Nat.lt_of_not_le (not_cond_of_ite_none h)

theorem key_of_not_raises_skp (h : raises (.skp x) s = none) : (s.reg x).toNat ≤ 15 :=
  Nat.le_of_not_lt (not_cond_of_ite_none h)

theorem key_of_not_raises_sknp (h : raises (.sknp x) s = none) : (s.reg x).toNat ≤ 15 :=
  Nat.le_of_not_lt (not_cond_of_ite_none h)

end

/-- An instruction under no condition of a fault completes by the tables. -/
theorem completes_of_not_raises {i : Instr} {s : State} (h : raises i s = none) : Completes i s := by
  cases i with
  | cls => exact completes_advance (exec_cls_clears s) rfl (frame_setFb_advance s _) rfl
  | ret => exact completes_ret (sp_pos_of_not_raises_ret h)
  | jp nnn => exact ⟨_, exec_jp_setPc nnn s, BitVec.toNat_setWidth .., frame_setPc s _⟩
  | call nnn =>
    have hsp := sp_lt_of_not_raises_call h
    exact ⟨_, exec_call_pushes nnn s hsp, BitVec.toNat_setWidth .., frame_push_setPc s _ _ hsp⟩
  | jpV0 nnn => exact completes_jpV0 nnn s
  | seImm x kk => exact completes_skipIf rfl (frame_setPc s _) rfl
  | sneImm x kk => exact completes_skipIf rfl (frame_setPc s _) (congrArg some (decide_not ..))
  | seReg x y => exact completes_skipIf rfl (frame_setPc s _) rfl
  | sneReg x y => exact completes_skipIf rfl (frame_setPc s _) (congrArg some (decide_not ..))
  | skp x => exact completes_skipIf (exec_skp_skips x s (key_of_not_raises_skp h)) (frame_setPc s _) rfl
  | sknp x => exact completes_skipIf (exec_sknp_skips x s (key_of_not_raises_sknp h)) (frame_setPc s _) rfl
  | ldImm x kk => exact completes_advance rfl rfl (frame_setReg_advance s x _) rfl
  | addImm x kk => exact completes_advance rfl rfl (frame_setReg_advance s x _) rfl
  | ldReg x y => exact completes_advance rfl rfl (frame_setReg_advance s x _) rfl
  | orReg x y => exact completes_advance rfl rfl (frame_setReg_advance s x _) rfl
  | andReg x y => exact completes_advance rfl rfl (frame_setReg_advance s x _) rfl
  | xorReg x y => exact completes_advance rfl rfl (frame_setReg_advance s x _) rfl
  | rnd x kk => exact completes_advance rfl rfl (frame_setReg_advance s x _) rfl
  | ldVxDt x => exact completes_advance rfl rfl (frame_setReg_advance s x _) rfl
  | addReg x y => exact completes_advance rfl rfl (frame_setRegFlag_advance s x _ _) rfl
  | sub x y => exact completes_advance rfl rfl (frame_setRegFlag_advance s x _ _) rfl
  | shr x y => exact completes_advance rfl rfl (frame_setRegFlag_advance s x _ _) rfl
  | subn x y => exact completes_advance rfl rfl (frame_setRegFlag_advance s x _ _) rfl
  | shl x y => exact completes_advance rfl rfl (frame_setRegFlag_advance s x _ _) rfl
  | ldI nnn => exact completes_advance rfl rfl (frame_setIndex_advance s _) rfl
  | addI x => exact completes_advance rfl rfl (frame_setIndex_advance s _) rfl
  | ldF x => exact completes_advance rfl rfl (frame_setIndex_advance s _) rfl
  | ldDtVx x => exact completes_advance rfl rfl (frame_setDt_advance s _) rfl
  | ldStVx x => exact completes_advance rfl rfl (frame_setSt_advance s _) rfl
  | ldVxK x => exact ⟨s.beginWait x, rfl, (Nat.mod_eq_of_lt s.pc.isLt).symm, frame_beginWait s x⟩
  | drw x y n =>
    have hin := range_of_not_raises_drw h
    exact completes_advance (exec_drw_draws x y n s hin) rfl (frame_setFb_setReg_advance s _ _) rfl
  | ldB x =>
    have hin := range_of_not_raises_ldB h
    exact completes_advance (exec_ldB_stores x s hin) rfl (frame_store_advance s s.indexAddr (bcdDigits (s.reg x))) rfl
  | stRegs x =>
    have hin := range_of_not_raises_stRegs h
    obtain ⟨t, hx, hpc, hframe, -⟩ := runsTo_stRegs x s hin
    exact ⟨t, hx, by rw [hpc]; exact BitVec.toNat_add _ _, hframe⟩
  | ldRegs x =>
    have hin := range_of_not_raises_ldRegs h
    exact completes_advance (exec_ldRegs_loads x s hin) rfl (frame_loadRegs_advance s x) rfl

/-- Settles O14, by the cases of the table. -/
theorem nextPcFollowsTheTable : Obligations.NextPcFollowsTheTable := by
  intro i s h
  obtain ⟨t, hx, hpc, -⟩ := completes_of_not_raises h
  exact ⟨t, hx, hpc⟩

/-- Settles O40, by the cases of the table. -/
theorem instructionsKeepTheirFrame : Obligations.InstructionsKeepTheirFrame := by
  intro i s h
  obtain ⟨t, hx, -, hframe⟩ := completes_of_not_raises h
  exact ⟨t, hx, hframe⟩

theorem changesOf_wait_iff (i : Instr) (s : State) : (changesOf i s).wait = true ↔ ∃ x, i = .ldVxK x := by
  cases i <;> simp [changesOf]

/-- Only Fx0A writes the run state without a fault, and it does not enter FAULTED (45_keys_timers.md R245). -/
theorem runState_of_not_raises {i : Instr} {s t : State} (h : raises i s = none) (hx : exec i s = .next t) :
    (t.runState = s.runState ∧ t.waitX = s.waitX) ∨ ∃ x, i = .ldVxK x ∧ t = s.beginWait x := by
  obtain ⟨u, hu, -, hframe⟩ := completes_of_not_raises h
  obtain rfl : u = t := Host.Outcome.next.inj (hu.symm.trans hx)
  cases hw : (changesOf i s).wait with
  | false => exact .inl (hframe.wait hw)
  | true =>
    obtain ⟨x, rfl⟩ := (changesOf_wait_iff i s).mp hw
    exact .inr ⟨x, rfl, (Host.Outcome.next.inj hx).symm⟩

/-- Settles O39: under its condition each instruction takes the fault; else its frame keeps the fault record. -/
theorem faultsExactlyWhereTheTableSays : Obligations.FaultsExactlyWhereTheTableSays := by
  refine fun i s => ⟨fun c h => exec_of_raises h, fun h => ?_⟩
  obtain ⟨t, hx, -, hframe⟩ := completes_of_not_raises h
  refine ⟨t, hx, hframe.fault.1, fun ht => ?_⟩
  obtain ⟨hrun, -⟩ | ⟨x, -, rfl⟩ := runState_of_not_raises h hx
  · exact hrun ▸ ht
  · cases ht

end Sys2Proof.Machine
end

section
/-! PROOFS. What an instruction does not depend on: the random byte (46_sequencer_and_ports.md R283), and the registers
the spec's table does not give it (10_state.md R23). A fault is the same either way; a meaning that completes commutes
with the change. -/

namespace Sys2Proof.Machine

/-! ### Carrying a change through an outcome -/

/-- Where the check passes in both states. -/
theorem mapNext_of_next {i : Instr} {s s' u : State} {f : State → State} (hx : exec i s = .next u)
    (hx' : exec i s' = .next (f u)) : exec i s' = mapNext f (exec i s) := by
  rw [hx, hx', mapNext]

/-- Where it fails in both, the record holds the same cause, `pc` and opcode. -/
theorem mapNext_of_raises {i : Instr} {s s' : State} {c : Fault} {f : State → State} (h : raises i s = some c)
    (hf : raises i s' = raises i s) (htake : s'.takeFault c (encode i) = f (s.takeFault c (encode i))) :
    exec i s' = mapNext f (exec i s) :=
  mapNext_of_next (exec_of_raises h) (htake ▸ exec_of_raises (hf.trans h))

/-! ### The random byte -/

/-- `s` with another random byte. -/
def State.setRnd (v : Byte) (s : State) : State := { s with rnd := v }

/-- No check reads the random byte. -/
theorem raises_setRnd (i : Instr) (v : Byte) (s : State) : raises i (s.setRnd v) = raises i s := by cases i <;> rfl

theorem exec_setRnd {i : Instr} (v : Byte) (s : State) (hne : ∀ x kk, i ≠ .rnd x kk) :
    exec i (s.setRnd v) = mapNext (State.setRnd v) (exec i s) := by
  cases h : raises i s with
  | some c => exact mapNext_of_raises h (raises_setRnd i v s) rfl
  | none =>
    cases i with
    | rnd x kk => exact absurd rfl (hne x kk)
    | ret =>
      have hsp := sp_pos_of_not_raises_ret h
      exact mapNext_of_next (exec_ret_pops s hsp) (exec_ret_pops (s.setRnd v) hsp)
    | call nnn =>
      have hsp := sp_lt_of_not_raises_call h
      exact mapNext_of_next (exec_call_pushes nnn s hsp) (exec_call_pushes nnn (s.setRnd v) hsp)
    | drw x y n =>
      have hin := range_of_not_raises_drw h
      exact mapNext_of_next (exec_drw_draws x y n s hin) (exec_drw_draws x y n (s.setRnd v) hin)
    | ldB x =>
      have hin := range_of_not_raises_ldB h
      exact mapNext_of_next (exec_ldB_stores x s hin) (exec_ldB_stores x (s.setRnd v) hin)
    | stRegs x =>
      have hin := range_of_not_raises_stRegs h
      exact mapNext_of_next (exec_stRegs_stores x s hin) (exec_stRegs_stores x (s.setRnd v) hin)
    | ldRegs x =>
      have hin := range_of_not_raises_ldRegs h
      exact mapNext_of_next (exec_ldRegs_loads x s hin) (exec_ldRegs_loads x (s.setRnd v) hin)
    | skp x =>
      have hkey := key_of_not_raises_skp h
      exact mapNext_of_next (exec_skp_skips x s hkey) (exec_skp_skips x (s.setRnd v) hkey)
    | sknp x =>
      have hkey := key_of_not_raises_sknp h
      exact mapNext_of_next (exec_sknp_skips x s hkey) (exec_sknp_skips x (s.setRnd v) hkey)
    | _ => rfl

/-- Settles O22: the checks and the other meanings do not read the byte. -/
theorem onlyRandomReadsTheRandomByte : Obligations.OnlyRandomReadsTheRandomByte := fun _ v s => exec_setRnd v s

/-! ### A register that is neither read nor written -/

section
variable {r x y : Reg} (s : State) (v w : Byte)

theorem State.reg_setReg_of_beq (h : (r == x) = false) : (s.setReg r v).reg x = s.reg x :=
  State.reg_setReg_ne s v (ne_of_beq_false h).symm

theorem State.regs_setReg_of_or (h : (r == x || r == y) = false) :
    (s.setReg r v).reg x = s.reg x ∧ (s.setReg r v).reg y = s.reg y := by
  obtain ⟨hx, hy⟩ := Bool.or_eq_false_iff.mp h
  exact ⟨s.reg_setReg_of_beq v hx, s.reg_setReg_of_beq v hy⟩

theorem State.setReg_advance_comm (h : (r == x) = false) :
    ((s.setReg r v).setReg x w).advance = (s.setReg x w).advance.setReg r v :=
  congrArg State.advance (State.setReg_comm s v w (ne_of_beq_false h))

theorem State.setRegFlag_advance_comm (c : Bool) (h : (r == x || r == vf) = false) :
    ((s.setReg r v).setRegFlag x w c).advance = (s.setRegFlag x w c).advance.setReg r v := by
  obtain ⟨hx, hvf⟩ := Bool.or_eq_false_iff.mp h
  rw [State.setRegFlag, State.setReg_comm s v w (ne_of_beq_false hx), State.setReg_advance_comm _ v _ hvf]
  rfl

/-- A register above the stored block is not stored (44_index_memory.md R214). -/
theorem State.regBlock_setReg (h : upTo x r = false) : (s.setReg r v).regBlock x = s.regBlock x := by
  have hlt : x.toNat < r.toNat := Nat.lt_of_not_le (of_decide_eq_false h)
  rw [State.regBlock, State.setReg_regs, Vector.toList_set, List.take_set_of_le (by omega), State.regBlock]

/-- A register above the loaded block stays (44_index_memory.md R215). -/
theorem State.loadRegs_setReg (h : upTo x r = false) : (s.setReg r v).loadRegs x = (s.loadRegs x).setReg r v := by
  have hlt : ¬ r.toNat ≤ x.toNat := of_decide_eq_false h
  simp only [State.loadRegs, State.setReg, State.indexAddr]
  congr 1
  ext j hj
  simp only [Vector.getElem_mapIdx, Vector.getElem_set]
  by_cases hr : r.toNat = j
  · subst hr; simp [hlt]
  · simp [hr]

end

/-- Only the key skips check a register, the one they read. -/
theorem raises_setReg {i : Instr} {r : Reg} (v : Byte) (s : State) (hr : readsReg r i = false) :
    raises i (s.setReg r v) = raises i s := by
  cases i with
  | skp x => simp only [raises, s.reg_setReg_of_beq v hr]
  | sknp x => simp only [raises, s.reg_setReg_of_beq v hr]
  | _ => rfl

/-- A meaning that completes reads the same operands, and its writes commute with the write of `r`. -/
theorem exec_setReg_of_not_raises {i : Instr} {r : Reg} (v : Byte) (s : State) (h : raises i s = none)
    (hr : readsReg r i = false) (hw : writesReg r i = false) :
    exec i (s.setReg r v) = mapNext (fun t => t.setReg r v) (exec i s) := by
  cases i with
  | ret =>
    have hsp := sp_pos_of_not_raises_ret h
    exact mapNext_of_next (exec_ret_pops s hsp) (exec_ret_pops (s.setReg r v) hsp)
  | call nnn =>
    have hsp := sp_lt_of_not_raises_call h
    exact mapNext_of_next (exec_call_pushes nnn s hsp) (exec_call_pushes nnn (s.setReg r v) hsp)
  | seImm x kk => simp only [exec, execSeImm, s.reg_setReg_of_beq v hr]; rfl
  | sneImm x kk => simp only [exec, execSneImm, s.reg_setReg_of_beq v hr]; rfl
  | seReg x y => simp only [exec, execSeReg, s.regs_setReg_of_or v hr]; rfl
  | sneReg x y => simp only [exec, execSneReg, s.regs_setReg_of_or v hr]; rfl
  | ldImm x kk => simp only [exec, execLdImm, s.setReg_advance_comm v _ hw]; rfl
  | addImm x kk => simp only [exec, execAddImm, s.reg_setReg_of_beq v hr, s.setReg_advance_comm v _ hw]; rfl
  | ldReg x y => simp only [exec, execLdReg, s.reg_setReg_of_beq v hr, s.setReg_advance_comm v _ hw]; rfl
  | orReg x y => simp only [exec, execOrReg, s.regs_setReg_of_or v hr, s.setReg_advance_comm v _ hw]; rfl
  | andReg x y => simp only [exec, execAndReg, s.regs_setReg_of_or v hr, s.setReg_advance_comm v _ hw]; rfl
  | xorReg x y => simp only [exec, execXorReg, s.regs_setReg_of_or v hr, s.setReg_advance_comm v _ hw]; rfl
  | addReg x y => simp only [exec, execAddReg, s.regs_setReg_of_or v hr, s.setRegFlag_advance_comm v _ _ hw]; rfl
  | sub x y => simp only [exec, execSub, s.regs_setReg_of_or v hr, s.setRegFlag_advance_comm v _ _ hw]; rfl
  | shr x y => simp only [exec, execShr, s.reg_setReg_of_beq v hr, s.setRegFlag_advance_comm v _ _ hw]; rfl
  | subn x y => simp only [exec, execSubn, s.regs_setReg_of_or v hr, s.setRegFlag_advance_comm v _ _ hw]; rfl
  | shl x y => simp only [exec, execShl, s.reg_setReg_of_beq v hr, s.setRegFlag_advance_comm v _ _ hw]; rfl
  | jpV0 nnn => simp only [exec, execJpV0, State.regZero, s.reg_setReg_of_beq v hr]; rfl
  | rnd x kk => simp only [exec, execRnd, s.setReg_advance_comm v _ hw]; rfl
  | drw x y n =>
    have hin := range_of_not_raises_drw h
    refine mapNext_of_next (exec_drw_draws x y n s hin) ?_
    obtain ⟨hx, hy⟩ := s.regs_setReg_of_or v hr
    have hcomm : ∀ (fb : Screen) (w : Byte),
        (((s.setReg r v).setFb fb).setReg vf w).advance = ((s.setFb fb).setReg vf w).advance.setReg r v :=
      fun fb w => State.setReg_advance_comm (s.setFb fb) v w hw
    rw [exec_drw_draws x y n (s.setReg r v) hin, hx, hy, hcomm]
    rfl
  | skp x =>
    have hkey := key_of_not_raises_skp h
    refine mapNext_of_next (exec_skp_skips x s hkey) ?_
    rw [exec_skp_skips x (s.setReg r v) (by rwa [s.reg_setReg_of_beq v hr]), s.reg_setReg_of_beq v hr]
    rfl
  | sknp x =>
    have hkey := key_of_not_raises_sknp h
    refine mapNext_of_next (exec_sknp_skips x s hkey) ?_
    rw [exec_sknp_skips x (s.setReg r v) (by rwa [s.reg_setReg_of_beq v hr]), s.reg_setReg_of_beq v hr]
    rfl
  | ldVxDt x => simp only [exec, execLdVxDt, s.setReg_advance_comm v _ hw]; rfl
  | ldDtVx x => simp only [exec, execLdDtVx, s.reg_setReg_of_beq v hr]; rfl
  | ldStVx x => simp only [exec, execLdStVx, s.reg_setReg_of_beq v hr]; rfl
  | addI x => simp only [exec, execAddI, s.reg_setReg_of_beq v hr]; rfl
  | ldF x => simp only [exec, execLdF, s.reg_setReg_of_beq v hr]; rfl
  | ldB x =>
    have hin := range_of_not_raises_ldB h
    refine mapNext_of_next (exec_ldB_stores x s hin) ?_
    rw [exec_ldB_stores x (s.setReg r v) hin, s.reg_setReg_of_beq v hr]
    rfl
  | stRegs x =>
    have hin := range_of_not_raises_stRegs h
    refine mapNext_of_next (exec_stRegs_stores x s hin) ?_
    rw [exec_stRegs_stores x (s.setReg r v) hin, s.regBlock_setReg v hr]
    rfl
  | ldRegs x =>
    have hin := range_of_not_raises_ldRegs h
    refine mapNext_of_next (exec_ldRegs_loads x s hin) ?_
    rw [exec_ldRegs_loads x (s.setReg r v) hin, s.loadRegs_setReg v hw]
    rfl
  | _ => rfl

/-- Settles O23: the checks read operands only, so a fault stays one, and a meaning that completes commutes with the
write. -/
theorem unusedRegistersDoNotMatter : Obligations.UnusedRegistersDoNotMatter := by
  intro i r v s hr hw
  cases h : raises i s with
  | some c => exact mapNext_of_raises h (raises_setReg v s hr) rfl
  | none => exact exec_setReg_of_not_raises v s h hr hw

end Sys2Proof.Machine
end

section
/-! PROOFS. The tick statements: what a step answers in each run state, and what it keeps (46_sequencer_and_ports.md R272
to R280, 60_exceptions.md R301 to R303). -/

namespace Sys2Proof.Machine

/-! ### Every instruction and every step answers a next state -/

theorem exec_answers (i : Instr) (s : State) : ∃ u, exec i s = .next u := by
  cases h : raises i s with
  | some c => exact ⟨_, exec_of_raises h⟩
  | none =>
    obtain ⟨u, hx, -⟩ := completes_of_not_raises h
    exact ⟨u, hx⟩

theorem finishInstr_next (u : State) :
    finishInstr (.next u) = .next (if u.runState = .faulted then u else u.requestFrame) := by
  rw [finishInstr]
  exact (apply_ite Host.Outcome.next _ _ _).symm

/-- A tick that executes `i` ends in the state `i` answers, with a frame requested unless that is FAULTED. -/
theorem step_of_executes_next {s u : State} {i : Instr} (h : Executes s i) (hx : exec i s.atExecute = .next u) :
    step s = .next (if u.runState = .faulted then u else u.requestFrame) := by
  rw [step_of_executes h, hx, finishInstr_next]

/-- A tick whose instruction faults requests no frame (decision D41). -/
theorem step_of_executes_faulted {s u : State} {i : Instr} (h : Executes s i) (hx : exec i s.atExecute = .next u)
    (hu : u.runState = .faulted) : step s = .next u := by
  rw [step_of_executes_next h hx, if_pos hu]

/-- A tick whose instruction leaves the core RUNNING requests a frame (46 R280). -/
theorem step_of_executes_running {s u : State} {i : Instr} (h : Executes s i) (hx : exec i s.atExecute = .next u)
    (hu : u.runState = s.runState) : step s = .next u.requestFrame := by
  have hrun : s.runState = .running := h.1.1
  rw [step_of_executes_next h hx, hu, hrun, if_neg (by decide)]

theorem step_of_fetch_none {s : State} (h : reachesTimers s) (hf : s.fetch = none) :
    step s = .next (s.atExecute.takeFault .fetchRange 0) := by
  simp only [step_of_reachesTimers h, executeOne, fetch_atExecute, hf]

theorem step_of_decode_error {s : State} {op : Word} {r : Reject} (h : reachesTimers s) (hf : s.fetch = some op)
    (hd : decode op = .error r) : step s = .next (s.atExecute.reportDecodeError op).requestFrame := by
  simp only [step_of_reachesTimers h, executeOne, fetch_atExecute, hf, hd]

/-- Quit ends the run in either of the two run states that poll (46 R275; decision D27). -/
theorem step_of_quit {s : State} (h : s.runState = .running ∨ s.runState = .blockedOnKey)
    (hq : s.nextInput.quit = true) : step s = .next (s.sample.poll s.nextInput.events).terminate := by
  obtain hr | hb := h
  · exact step_ending s hr (.inl hq)
  · rw [step_blocked s hb, blockedTick, if_pos hq]

theorem step_of_woken {s : State} {k : Reg} (h : s.runState = .blockedOnKey) (hq : s.nextInput.quit = false)
    (hk : firstPress s.nextInput.events = some k) : step s = .next ((s.sample.poll s.nextInput.events).endWait k) := by
  simp only [step_blocked s h, blockedTick, hq, Bool.false_eq_true, if_false, hk]

theorem step_of_waiting {s : State} (h : s.runState = .blockedOnKey) (hq : s.nextInput.quit = false)
    (hk : firstPress s.nextInput.events = none) : step s = .next (s.sample.poll s.nextInput.events) := by
  simp only [step_blocked s h, blockedTick, hq, Bool.false_eq_true, if_false, hk]

/-- A tick that reaches its timers answers: a fetch fault, a decode error, or what its instruction answers. -/
theorem step_answers_of_reachesTimers {s : State} (h : reachesTimers s) : ∃ t, step s = .next t := by
  cases hf : s.fetch with
  | none => exact ⟨_, step_of_fetch_none h hf⟩
  | some op =>
    cases hd : decode op with
    | error r => exact ⟨_, step_of_decode_error h hf hd⟩
    | ok i =>
      obtain ⟨u, hx⟩ := exec_answers i s.atExecute
      exact ⟨_, step_of_executes_next ⟨h, op, hf, hd⟩ hx⟩

/-- A waiting tick answers, whether quit, a press or neither comes in. -/
theorem step_answers_of_blocked {s : State} (h : s.runState = .blockedOnKey) : ∃ t, step s = .next t := by
  cases hq : s.nextInput.quit with
  | true => exact ⟨_, step_of_quit (.inr h) hq⟩
  | false =>
    cases hk : firstPress s.nextInput.events with
    | some k => exact ⟨_, step_of_woken h hq hk⟩
    | none => exact ⟨_, step_of_waiting h hq hk⟩

/-- Settles O49, by run state: the instructions answer next states, and so does every other way through a tick. -/
theorem everyStepAnswersNext : Obligations.EveryStepAnswersNext := by
  intro s
  cases h : s.runState with
  | terminated => exact ⟨_, step_final s (.inl h)⟩
  | faulted => exact ⟨_, step_final s (.inr h)⟩
  | blockedOnKey => exact step_answers_of_blocked h
  | running =>
    by_cases hr : reachesTimers s
    · exact step_answers_of_reachesTimers hr
    · exact ⟨_, step_of_not_reachesTimers h hr⟩

/-! ### One tick -/

/-- Settles O44: the tick ends with the state the instruction answers, and a frame unless that is FAULTED. -/
theorem stepExecutesTheDecodedInstruction : Obligations.StepExecutesTheDecodedInstruction := by
  refine fun s op i hr hf hd => ⟨?_, rfl⟩
  obtain ⟨u, hx⟩ := exec_answers i s.atExecute
  rw [step_of_executes_next ⟨hr, op, hf, hd⟩ hx, hx]
  rfl

/-- Settles O41: the record's opcode is the encoding of the instruction, which is the fetched word. -/
theorem faultEntryIsPrecise : Obligations.FaultEntryIsPrecise := by
  intro s op i c hr hf hd hraises
  have hop : encode i = op := encodeOfDecode op i hd
  have hx := exec_of_raises hraises
  rw [hop] at hx
  exact ⟨_, step_of_executes_faulted ⟨hr, op, hf, hd⟩ hx rfl, rfl, rfl, rfl, by cases c <;> rfl⟩

/-- Settles O43: a word that matches no row of the table is a decode error of the decoder. -/
theorem decodeErrorsAreReportedAndSkipped : Obligations.DecodeErrorsAreReportedAndSkipped := fun _ op hr hf hno =>
  step_of_decode_error hr hf ((decode_error_iff op).mpr hno)

/-- Settles O42: outside the range the fetch answers no word. -/
theorem fetchIsBigEndianAndRangeChecked : Obligations.FetchIsBigEndianAndRangeChecked := by
  refine fun s => ⟨fetch_bigEndian, fun hr hout => ?_⟩
  have hf : s.fetch = none := if_neg (by simp only [Config.progBase, Config.memSize]; omega)
  exact step_of_fetch_none hr hf

/-- Settles O45: quit is looked at before the timers and before the end of a wait. -/
theorem quitEndsTheRun : Obligations.QuitEndsTheRun := fun _ h hq => ⟨_, step_of_quit h hq, rfl⟩

/-- Settles O46: the end of the program is looked at before the timers. -/
theorem pastTheEndTerminates : Obligations.PastTheEndTerminates := fun s h _ hend =>
  ⟨_, step_ending s h (.inr hend), rfl⟩

/-- Settles O47: such a tick samples its inputs only. -/
theorem finalStatesChangeNothing : Obligations.FinalStatesChangeNothing := fun s h => ⟨_, step_final s h, rfl⟩

/-! ### What every step keeps -/

/-- No instruction writes the keys, `prog_end` or `present`, whether it completes or faults. -/
theorem exec_keeps {i : Instr} {s u : State} (hx : exec i s = .next u) :
    u.keys = s.keys ∧ u.progEnd = s.progEnd ∧ u.present = s.present := by
  cases h : raises i s with
  | some c =>
    rw [exec_of_raises h] at hx
    cases hx
    exact ⟨rfl, rfl, rfl⟩
  | none =>
    obtain ⟨t, ht, -, hframe⟩ := completes_of_not_raises h
    obtain rfl : t = u := Host.Outcome.next.inj (ht.symm.trans hx)
    exact ⟨hframe.keys, hframe.progEnd, hframe.outputs.1⟩

/-- An instruction that does not leave the core FAULTED raised nothing. -/
theorem not_raises_of_runState {i : Instr} {s u : State} (hx : exec i s = .next u) (hu : u.runState ≠ .faulted) :
    raises i s = none := by
  cases h : raises i s with
  | none => rfl
  | some c =>
    rw [exec_of_raises h] at hx
    cases hx
    exact absurd rfl hu

/-- Settles O48, by the cases of a step. -/
theorem frameRequestedExactlyWhenExecuted : Obligations.FrameRequestedExactlyWhenExecuted := by
  refine fun s t h => ⟨?_, rfl⟩
  cases step_cases h with
  | final hs e =>
    subst e
    have hn : ¬ reachesTimers s := not_reachesTimers_of_ne_running (by rcases hs with hs | hs <;> simp [hs])
    exact iff_of_false Bool.false_ne_true fun hr => hn hr.1
  | ended _ hn e => subst e; exact iff_of_false Bool.false_ne_true fun hr => hn hr.1
  | woken _ hs _ _ e =>
    subst e
    exact iff_of_false Bool.false_ne_true fun hr => not_reachesTimers_of_ne_running (by simp [hs]) hr.1
  | waiting hs _ _ e =>
    subst e
    exact iff_of_false Bool.false_ne_true fun hr => not_reachesTimers_of_ne_running (by simp [hs]) hr.1
  | fetchFault _ _ e => subst e; exact iff_of_false Bool.false_ne_true fun hr => hr.2 rfl
  | decodeError _ hr _ _ e =>
    subst e
    have hrun : s.runState = .running := hr.1
    exact iff_of_true rfl ⟨hr, by simp [State.atExecute, hrun]⟩
  | executed i u hi hx e =>
    obtain ⟨-, -, hpresent⟩ := exec_keeps hx
    split at e
    · next hu =>
      subst e
      exact iff_of_false (by rw [State.outputs, hpresent]; exact Bool.false_ne_true) fun hr => hr.2 hu
    · next hu => subst e; exact iff_of_true rfl ⟨hi.1, hu⟩

/-- The end of an executing tick writes `present` at most. -/
theorem exists_present_of_ite_requestFrame (u : State) :
    ∃ p, (if u.runState = .faulted then u else u.requestFrame) = { u with present := p } := by
  split
  · exact ⟨u.present, rfl⟩
  · exact ⟨true, rfl⟩

/-- Settles O50: an instruction that leaves the core RUNNING raised nothing, so its frame keeps the record. -/
theorem writeOnceRegisters : Obligations.WriteOnceRegisters := by
  intro s t h
  cases step_cases h with
  | final _ e => subst e; exact ⟨rfl, fun _ => ⟨rfl, rfl, rfl⟩⟩
  | ended _ _ e => subst e; exact ⟨rfl, fun _ => ⟨rfl, rfl, rfl⟩⟩
  | woken _ _ _ _ e => subst e; exact ⟨rfl, fun _ => ⟨rfl, rfl, rfl⟩⟩
  | waiting _ _ _ e => subst e; exact ⟨rfl, fun _ => ⟨rfl, rfl, rfl⟩⟩
  | decodeError _ _ _ _ e => subst e; exact ⟨rfl, fun _ => ⟨rfl, rfl, rfl⟩⟩
  | fetchFault hr _ e =>
    subst e
    exact ⟨rfl, fun hor => absurd rfl (hor.resolve_left (by simp [hr.1]))⟩
  | executed i u hi hx e =>
    obtain ⟨p, hp⟩ := exists_present_of_ite_requestFrame u
    rw [hp] at e
    subst e
    refine ⟨(exec_keeps hx).2.1, fun hor => ?_⟩
    have hu : u.runState ≠ .faulted := hor.resolve_left (by simp [hi.1.1])
    obtain ⟨t, ht, -, hframe⟩ := completes_of_not_raises (not_raises_of_runState hx hu)
    obtain rfl : t = u := Host.Outcome.next.inj (ht.symm.trans hx)
    exact hframe.fault

/-! ### Keys -/

/-- The last event of a longer poll is the one added, if it names the key. -/
theorem lastEvent_concat (k : Reg) (es : List KeyEvent) (e : KeyEvent) :
    lastEvent k (es ++ [e]) = if e.key = k then some e.kind else lastEvent k es := by
  by_cases h : e.key = k <;> simp [lastEvent, List.filter_append, h]

/-- A key after a poll: what its last event left, or its old value (46 R276). -/
theorem getElem_foldl_applyEvent (keys : Vector Bool 16) (k : Reg) (es : List KeyEvent) :
    (es.foldl applyEvent keys)[k.toNat]'k.isLt =
      (lastEvent k es).elim (keys[k.toNat]'k.isLt) fun e => decide (e = .press) := by
  induction es using List.reverseRecOn with
  | nil => rfl
  | append_singleton es e ih =>
    rw [List.foldl_concat, key_applyEvent, lastEvent_concat, ih]
    by_cases h : e.key = k
    · rw [if_pos h.symm, if_pos h]; rfl
    · rw [if_neg (Ne.symm h), if_neg h]

/-- The ticks that poll, and the ones that do not (46 R273, R276; decision D38). -/
theorem keys_of_step {s t : State} (h : step s = .next t) :
    (s.runState = .running ∨ s.runState = .blockedOnKey → t.keys = s.nextInput.events.foldl applyEvent s.keys) ∧
    (s.runState = .terminated ∨ s.runState = .faulted → t.keys = s.keys) := by
  cases step_cases h with
  | final hs e => subst e; exact ⟨fun hor => by rcases hs with hs | hs <;> simp [hs] at hor, fun _ => rfl⟩
  | ended hs _ e => subst e; exact ⟨fun _ => rfl, fun hor => by rcases hs with hs | hs <;> simp [hs] at hor⟩
  | woken _ hs _ _ e => subst e; exact ⟨fun _ => rfl, fun hor => by simp [hs] at hor⟩
  | waiting hs _ _ e => subst e; exact ⟨fun _ => rfl, fun hor => by simp [hs] at hor⟩
  | fetchFault hr _ e => subst e; exact ⟨fun _ => rfl, fun hor => by simp [hr.1] at hor⟩
  | decodeError _ hr _ _ e => subst e; exact ⟨fun _ => rfl, fun hor => by simp [hr.1] at hor⟩
  | executed i u hi hx e =>
    obtain ⟨p, hp⟩ := exists_present_of_ite_requestFrame u
    rw [hp] at e
    subst e
    exact ⟨fun _ => (exec_keeps hx).1, fun hor => by simp [hi.1.1] at hor⟩

/-- Settles O37: the polled keys, read at one key. -/
theorem pollLeavesTheLastEvent : Obligations.PollLeavesTheLastEvent := by
  intro s t k h
  obtain ⟨hpoll, hkeep⟩ := keys_of_step h
  refine ⟨fun hs => ?_, fun hs => by rw [State.key, State.key]; simp only [hkeep hs]⟩
  rw [State.key]
  simp only [hpoll hs, getElem_foldl_applyEvent]
  cases lastEvent k s.nextInput.events <;> rfl

/-- Settles O38: a kind bit is 0 or 1, and the event of either sets its own key only. -/
theorem keyEventCodes : Obligations.KeyEventCodes := by
  intro s kind k
  have hkeys : ∀ j e, (s.poll [e]).key j = if j = e.key then e.kind == .press else s.key j :=
    fun j e => key_applyEvent s.keys e j
  obtain rfl | rfl := BitVec.eq_zero_or_eq_one kind
  · exact ⟨rfl, rfl, by simp [hkeys, KeyEvent.ofPort], fun j hj => by simp [hkeys, KeyEvent.ofPort, hj]⟩
  · exact ⟨rfl, rfl, by simp [hkeys, KeyEvent.ofPort], fun j hj => by simp [hkeys, KeyEvent.ofPort, hj]⟩

/-- The first press of a poll, as the head of its presses (45_keys_timers.md R247). -/
theorem firstPress_eq_head (es : List KeyEvent) :
    firstPress es = ((es.filter fun e => e.kind == .press).head?).map KeyEvent.key := by
  induction es with
  | nil => rfl
  | cons e es ih =>
    by_cases h : e.kind = .press
    · simp [firstPress, h]
    · simp [firstPress, h, ih]

/-- Settles O36. -/
theorem keyWaitEndsOnTheFirstPress : Obligations.KeyWaitEndsOnTheFirstPress := by
  refine fun s hb hq => ⟨fun e he => ?_, fun hnone => ?_⟩
  · have hk : firstPress s.nextInput.events = some e.key := by rw [firstPress_eq_head, he]; rfl
    refine ⟨_, step_of_woken hb hq hk, ?_, fun r hr => ?_, rfl⟩
    · rw [State.reg_endWait]; exact if_pos rfl
    · rw [State.reg_endWait]; exact if_neg hr
  · have hk : firstPress s.nextInput.events = none := by rw [firstPress_eq_head, hnone]; rfl
    exact ⟨_, step_of_waiting hb hq hk, rfl⟩

/-! ### Timers -/

theorem exec_ldVxDt_writes (x : Reg) (s : State) : exec (.ldVxDt x) s = .next (s.setReg x s.dt).advance := rfl

theorem exec_ldDtVx_writes (x : Reg) (s : State) : exec (.ldDtVx x) s = .next (s.setDt (s.reg x)).advance := rfl

theorem exec_ldStVx_writes (x : Reg) (s : State) : exec (.ldStVx x) s = .next (s.setSt (s.reg x)).advance := rfl

section
variable {x : Reg} {s t : State}

/-- Fx07 sees DT after this tick's decrement (46 R274). -/
theorem reg_of_step_ldVxDt (h : step s = .next t) (hi : Executes s (.ldVxDt x)) : (t.reg x).toNat = s.dt.toNat - 1 := by
  rw [step_of_executes_running hi (exec_ldVxDt_writes x _) rfl] at h
  cases h
  rw [State.reg_requestFrame, State.reg_advance, State.reg_setReg_same]
  exact toNat_timerTick s.dt

theorem dt_of_step_ldDtVx (h : step s = .next t) (hi : Executes s (.ldDtVx x)) : t.dt = s.reg x := by
  rw [step_of_executes_running hi (exec_ldDtVx_writes x _) rfl] at h
  cases h
  rfl

theorem st_of_step_ldStVx (h : step s = .next t) (hi : Executes s (.ldStVx x)) : t.st = s.reg x := by
  rw [step_of_executes_running hi (exec_ldStVx_writes x _) rfl] at h
  cases h
  rfl

end

/-- Settles O32: the rows, the three writes, and what a tick that executes one of them leaves for the next. -/
theorem timerInstructions : Obligations.TimerInstructions := by
  refine ⟨rowDecodes_ldVxDt, rowDecodes_ldDtVx, rowDecodes_ldStVx, fun x s => ⟨?_, ?_, ?_⟩, fun x s t h => ⟨?_, ?_, ?_⟩⟩
  · exact runsTo_of_exec_setReg (exec_ldVxDt_writes x s) fun _ => id
  · exact ⟨_, exec_ldDtVx_writes x s, rfl, frame_setDt_advance s _, rfl⟩
  · exact ⟨_, exec_ldStVx_writes x s, rfl, frame_setSt_advance s _, rfl⟩
  · exact reg_of_step_ldVxDt h
  · intro hi
    have hdt := dt_of_step_ldDtVx h hi
    refine ⟨hdt, fun _ => hdt ▸ toNat_timerTick t.dt, fun hn u hu => ?_⟩
    obtain ⟨-, -, -, hkept⟩ := timersCountOncePerExecutingTick t u hu
    exact (hkept hn).1.trans hdt
  · intro hi
    have hst := st_of_step_ldStVx h hi
    exact ⟨hst, by rw [State.outputs, State.soundActive, hst, decide_eq_true_eq]⟩

/-- Settles O34, by induction on the number of ticks: the first is a step that counts, the rest a shorter run. -/
theorem delayTimerCountsDown : Obligations.DelayTimerCountsDown := by
  intro k
  induction k with
  | zero => rintro s _ - ⟨⟩; rfl
  | succ k ih =>
    intro s t hall hrun
    obtain ⟨s', hs'⟩ := everyStepAnswersNext s
    obtain ⟨hreach, hno⟩ := hall 0 s (Nat.succ_pos k) rfl
    obtain ⟨-, hdt, -, -⟩ := timersCountOncePerExecutingTick s s' hs'
    rw [run_succ k s s' hs'] at hrun
    have hrest := ih s' t (fun j u hj hu => hall (j + 1) u (Nat.succ_lt_succ hj) (by rwa [run_succ j s s' hs'])) hrun
    rw [hrest, hdt hreach hno, Nat.sub_sub, Nat.add_comm]

end Sys2Proof.Machine
end

section
/-! PROOFS. The invariant: it holds after every load, and every step keeps it (42_control_flow.md R142, 10_state.md
section 7, 70_reset_and_hazards.md R330). -/

namespace Sys2Proof.Machine

/-! ### The load -/

/-- The memory of a load of a ROM that fits is canonical. -/
theorem wf_loadMemory (font : Vector Byte 80) {rom : List Byte} (h : rom.length ≤ 3584) :
    (loadMemory font rom).wf = true := by
  have hfont : Memory.wf (Memory.writeBytes [] 0 font.toList) = true :=
    Memory.wf_writeBytes [] 0 font.toList (by simp) Memory.wf_nil
  exact Memory.wf_writeBytes _ _ rom (by simp only [Config.progBase, Config.memSize]; omega) hfont

/-- The three parts of memory after a load: the font, the ROM, and zeros (70 R330). -/
theorem read_loadMemory (font : Vector Byte 80) (rom : List Byte) (a : Nat) :
    (loadMemory font rom).read a =
      if 512 ≤ a ∧ a < 512 + rom.length then rom.getD (a - 512) 0
      else if a < 80 then font.toList.getD a 0 else 0 := by
  have hreset : 80 ≤ a → Memory.resetByte a = 0 := fun ha =>
    List.getD_eq_default _ _ (by rw [Vector.length_toList]; exact ha)
  rw [loadMemory, Memory.read_writeBytes, Memory.read_writeBytes, Vector.length_toList, Memory.read_nil]
  refine if_congr Iff.rfl rfl ?_
  by_cases ha : a < 80
  · simp [ha]
  · simp [ha, hreset (by omega)]

/-- A load starts the core at the reset state's values, apart from memory and `prog_end` (70 R330). -/
theorem load_eq_some (font : Vector Byte 80) {rom : List Byte} (h : rom.length ≤ 3584) :
    State.load font rom = some { State.reset with
      mem := loadMemory font rom, progEnd := BitVec.ofNat 16 (512 + rom.length) } :=
  if_pos (decide_eq_true h)

theorem toNat_ofNat_progBase_add {n : Nat} (h : n ≤ 3584) : (BitVec.ofNat 16 (512 + n)).toNat = 512 + n := by
  rw [BitVec.toNat_ofNat]
  omega

/-- A machine at the reset state's values with a program in memory meets the invariant: it is RUNNING, its stack is
empty and its fault record clear. -/
theorem inv_reset_with {m : Memory} {w : Word} (hm : m.wf = true) (hw : 512 ≤ w.toNat ∧ w.toNat ≤ 4096) :
    Inv { State.reset with mem := m, progEnd := w } where
  memory := hm
  progEnd := hw
  pc := show State.reset.pc.toNat ≤ 0x10FE by decide
  stack := fun j _ hj => absurd hj (Nat.not_lt_zero j)
  waiting := fun h => by cases h
  noFault := fun _ => ⟨rfl, rfl, rfl⟩
  faulted := fun h => by cases h

/-- Settles O52: reset lists nothing in memory, and ends the program where it starts. -/
theorem invHoldsAtReset : Obligations.InvHoldsAtReset := inv_reset_with Memory.wf_nil (by decide)

/-- Settles O53: the font lies below the ROM, so neither hides the other. -/
theorem loadPlacesFontAndProgram : Obligations.LoadPlacesFontAndProgram := by
  refine fun font rom => ⟨fun h => ?_, fun h => if_neg (by simpa [romWellFormed] using h)⟩
  have hend := toNat_ofNat_progBase_add h
  refine ⟨_, load_eq_some font h, fun a b hb => ?_, fun k b hb => ?_, fun a ha hout => ?_, rfl, hend, rfl, rfl,
    inv_reset_with (wf_loadMemory font h) (by omega)⟩
  · have ha : a < 80 := by
      obtain ⟨hlt, -⟩ := List.getElem?_eq_some_iff.mp hb
      rwa [Vector.length_toList] at hlt
    simp only [read_loadMemory, List.getD_eq_getElem?_getD, hb, ha, if_true, Option.getD_some]
    exact if_neg (by omega)
  · have hk : k < rom.length := (List.getElem?_eq_some_iff.mp hb).1
    simp only [read_loadMemory, Nat.add_sub_cancel_left, List.getD_eq_getElem?_getD, hb, Option.getD_some]
    exact if_pos (by omega)
  · rw [read_loadMemory, if_neg (by omega), if_neg (by omega)]

/-- The default font is what an unlisted address reads as, so loading it lists nothing (log 4). -/
theorem loadMemory_font_nil : loadMemory Config.font [] = [] := by
  refine Memory.eq_of_read _ _ (wf_loadMemory Config.font (Nat.zero_le _)) Memory.wf_nil fun a => ?_
  rw [read_loadMemory, if_neg (by simp), Memory.read_nil, Memory.resetByte]
  split
  · rfl
  · next ha => exact (List.getD_eq_default _ _ (by rw [Vector.length_toList]; omega)).symm

/-- Settles O54: the load of the default font lists nothing, so it is the reset state, whose fields are read off. -/
theorem resetValues : Obligations.ResetValues := by
  refine ⟨?_, fun r => ?_, rfl, rfl, rfl, fun j hj => ?_, rfl, rfl, fun k => ?_, fun j _ => Screen.cell_clear j, rfl, rfl,
    rfl, rfl, rfl, rfl, fun a ha => ?_, fun a b hb => ?_⟩
  · rw [load_eq_some Config.font (Nat.zero_le _), loadMemory_font_nil]
    rfl
  · simp [State.reg, State.reset]
  · simp [State.reset, hj]
  · simp [State.key, State.reset]
  · exact List.getD_eq_default _ _ (by rw [Vector.length_toList]; exact ha)
  · rw [State.reset, Memory.read_nil, Memory.resetByte, List.getD_eq_getElem?_getD, hb, Option.getD_some]

/-- Settles O55: the program ends where it starts, so the first tick ends the run. -/
theorem emptyRomTerminatesAtOnce : Obligations.EmptyRomTerminatesAtOnce := by
  intro font ins s h
  rw [load_eq_some font (Nat.zero_le _)] at h
  cases h
  exact ⟨_, step_ending _ rfl (.inr (Nat.le_refl 512)), rfl, rfl, rfl, rfl, rfl⟩

/-! ### What an executed instruction keeps -/

/-- Two accounts of one outcome speak of one state. -/
theorem wf_of_next {i : Instr} {s u u' : State} (hx : exec i s = .next u) (hx' : exec i s = .next u')
    (hwf : u'.mem.wf = true) : u.mem.wf = true := Host.Outcome.next.inj (hx'.symm.trans hx) ▸ hwf

/-- Only Fx33 and Fx55 write memory, and they check every address first (20_memory.md R55). -/
theorem exec_keeps_wf {i : Instr} {s u : State} (hr : raises i s = none) (hx : exec i s = .next u)
    (hwf : s.mem.wf = true) : u.mem.wf = true := by
  cases i with
  | ldB x =>
    have hin := range_of_not_raises_ldB hr
    exact wf_of_next hx (exec_ldB_stores x s hin) (Memory.wf_writeBytes s.mem _ _ hin hwf)
  | stRegs x =>
    have hin := range_of_not_raises_stRegs hr
    exact wf_of_next hx (exec_stRegs_stores x s hin)
      (Memory.wf_writeBytes s.mem _ _ (by rw [State.length_regBlock]; exact hin) hwf)
  | ret => exact wf_of_next hx (exec_ret_pops s (sp_pos_of_not_raises_ret hr)) hwf
  | call nnn => exact wf_of_next hx (exec_call_pushes nnn s (sp_lt_of_not_raises_call hr)) hwf
  | drw x y n => exact wf_of_next hx (exec_drw_draws x y n s (range_of_not_raises_drw hr)) hwf
  | ldRegs x => exact wf_of_next hx (exec_ldRegs_loads x s (range_of_not_raises_ldRegs hr)) hwf
  | skp x => exact wf_of_next hx (exec_skp_skips x s (key_of_not_raises_skp hr)) hwf
  | sknp x => exact wf_of_next hx (exec_sknp_skips x s (key_of_not_raises_sknp hr)) hwf
  | _ => exact wf_of_next hx rfl hwf

theorem changesOf_stack_iff (i : Instr) (s : State) : (changesOf i s).stack = true ↔ i = .ret ∨ ∃ nnn, i = .call nnn := by
  cases i <;> simp [changesOf]

/-- The addresses of executed calls stay below the top: a call pushes one more, a return drops one. -/
theorem exec_keeps_stack {i : Instr} {s u : State} (hinv : Inv s) (hr : raises i s = none) (hx : exec i s = .next u)
    (hpc : 512 ≤ s.pc.toNat ∧ s.pc.toNat < s.progEnd.toNat) {j : Nat} {e : Word} (hj : j < u.sp.val)
    (he : u.stack[j]? = some e) : 0x200 ≤ e.toNat ∧ e.toNat < s.progEnd.toNat := by
  cases hc : (changesOf i s).stack with
  | false =>
    obtain ⟨t, ht, -, hframe⟩ := completes_of_not_raises hr
    obtain rfl : t = u := Host.Outcome.next.inj (ht.symm.trans hx)
    obtain ⟨hsp, hstack⟩ := hframe.stack hc
    exact hinv.stack j e (hsp ▸ hj) (hstack ▸ he)
  | true =>
    obtain rfl | ⟨nnn, rfl⟩ := (changesOf_stack_iff i s).mp hc
    · rw [exec_ret_pops s (sp_pos_of_not_raises_ret hr)] at hx
      cases hx
      exact hinv.stack j e (Nat.lt_of_lt_of_le hj (Nat.sub_le _ _)) he
    · have hsp := sp_lt_of_not_raises_call hr
      obtain ⟨-, -, husp, hpushed, hkept⟩ := (runsTo_call nnn s hsp).of_exec hx
      by_cases hjs : j = s.sp.val
      · rw [hjs, hpushed] at he
        cases he
        exact hpc
      · rw [hkept j (by omega) hjs] at he
        exact hinv.stack j e (by omega) he

/-- No instruction fetched in range leaves `pc` above `0x10FE`, the farthest jump of Bnnn (42_control_flow.md R142). -/
theorem nextPcOf_le {i : Instr} {s : State} (hinv : Inv s) (hr : raises i s = none) (hpc : s.pc.toNat + 1 < 4096) :
    nextPcOf i s ≤ 0x10FE := by
  unfold nextPcOf
  split
  · next nnn => have := nnn.isLt; omega
  · next nnn => have := nnn.isLt; omega
  · next nnn => have := nnn.isLt; have := (s.reg 0).isLt; omega
  · have hsp := sp_pos_of_not_raises_ret hr
    have hlt := s.sp.isLt
    have he : s.stack[s.sp.val - 1]? = some (s.stack.toList.getD (s.sp.val - 1) 0) := by
      simp [List.getD_eq_getElem?_getD, show s.sp.val - 1 < 16 by omega]
    obtain ⟨-, hentry⟩ := hinv.stack _ _ (by omega) he
    obtain ⟨-, hend⟩ := hinv.progEnd
    omega
  · omega
  · split <;> omega

/-! ### The invariant through the pieces of a tick -/

section
variable {s : State} (hinv : Inv s)
include hinv

/-- Sampling, the poll and the timers touch nothing the invariant speaks of. -/
theorem inv_sample : Inv s.sample := { hinv with }

theorem inv_poll : Inv (s.sample.poll s.nextInput.events) := { hinv with }

theorem inv_atExecute : Inv s.atExecute := { hinv with }

theorem inv_present (p : Bool) : Inv { s with present := p } := { hinv with }

/-- Ending a run that has not faulted (46 R275, R277). -/
theorem inv_terminate (h : s.runState ≠ .faulted) : Inv s.terminate :=
  { hinv with
    waiting := fun hb => by cases hb
    noFault := fun _ => hinv.noFault h
    faulted := fun hf => by cases hf }

/-- Fault entry records where the core stopped (60_exceptions.md R303). -/
theorem inv_takeFault (c : Fault) (op : Word) : Inv (s.takeFault c op) :=
  { hinv with
    waiting := fun hb => by cases hb
    noFault := fun hne => absurd rfl hne
    faulted := fun _ => ⟨Option.some_ne_none c, rfl⟩ }

/-- The wait ends past its Fx0A, which is below `prog_end` (45_keys_timers.md R246). -/
theorem inv_endWait (h : s.runState = .blockedOnKey) (k : Reg) : Inv (s.endWait k) :=
  { hinv with
    pc := by
      obtain ⟨hlt, -⟩ := hinv.waiting h
      obtain ⟨-, hend⟩ := hinv.progEnd
      rw [State.endWait_pc, BitVec.toNat_add]
      exact Nat.le_trans (Nat.mod_le _ _) (by simp; omega)
    waiting := fun hb => by cases hb
    noFault := fun _ => hinv.noFault (by simp [h])
    faulted := fun hf => by cases hf }

/-- A decode error in a RUNNING tick skips two bytes of a word that was fetched in range (60_exceptions.md R301). -/
theorem inv_reportDecodeError (h : s.runState = .running) (hpc : s.pc.toNat + 1 < 4096) (op : Word) :
    Inv (s.reportDecodeError op) :=
  { hinv with
    pc := by
      rw [State.reportDecodeError_pc, BitVec.toNat_add]
      exact Nat.le_trans (Nat.mod_le _ _) (by simp; omega)
    waiting := fun hb => by simp [h] at hb
    noFault := fun _ => hinv.noFault (by simp [h])
    faulted := fun hf => by simp [h] at hf }

/-- An instruction executed by a RUNNING tick, from the word at `pc`. -/
theorem inv_exec {i : Instr} {op : Word} {u : State} (hrun : s.runState = .running) (hf : s.fetch = some op)
    (hd : decode op = .ok i) (hlt : s.pc.toNat < s.progEnd.toNat) (hx : exec i s = .next u) : Inv u := by
  cases hr : raises i s with
  | some c =>
    rw [exec_of_raises hr] at hx
    cases hx
    exact inv_takeFault hinv c _
  | none =>
    obtain ⟨hlo, hhi⟩ := fetch_range hf
    obtain ⟨t, ht, hpc, hframe⟩ := completes_of_not_raises hr
    obtain rfl : t = u := Host.Outcome.next.inj (ht.symm.trans hx)
    have hstate := runState_of_not_raises hr hx
    exact {
      memory := exec_keeps_wf hr hx hinv.memory
      progEnd := hframe.progEnd ▸ hinv.progEnd
      pc := hpc ▸ Nat.le_trans (Nat.mod_le _ _) (nextPcOf_le hinv hr hhi)
      stack := fun j e hj he => hframe.progEnd ▸ exec_keeps_stack hinv hr hx ⟨hlo, hlt⟩ hj he
      waiting := fun hb => by
        obtain ⟨hsame, -⟩ | ⟨x, rfl, rfl⟩ := hstate
        · rw [hsame, hrun] at hb
          cases hb
        · exact ⟨hlt, op, hf, hd⟩
      noFault := fun _ => by
        obtain ⟨hcause, hfpc, hfop⟩ := hframe.fault
        rw [hcause, hfpc, hfop]
        exact hinv.noFault (by simp [hrun])
      faulted := fun hfaulted => by
        obtain ⟨hsame, -⟩ | ⟨x, -, rfl⟩ := hstate
        · rw [hsame, hrun] at hfaulted
          cases hfaulted
        · cases hfaulted }

end

/-- Settles O51, by the cases of a step: each is one of the pieces above. -/
theorem everyStepKeepsInv : Obligations.EveryStepKeepsInv := by
  intro s t hinv h
  cases step_cases h with
  | final _ e => subst e; exact inv_sample hinv
  | ended hs _ e =>
    subst e
    exact inv_terminate (inv_poll hinv) (by rcases hs with hs | hs <;> simp [hs])
  | woken k hs _ _ e => subst e; exact inv_endWait (inv_poll hinv) hs k
  | waiting _ _ _ e => subst e; exact inv_poll hinv
  | fetchFault _ _ e => subst e; exact inv_takeFault (inv_atExecute hinv) _ _
  | decodeError op hr hf _ e =>
    subst e
    exact inv_present (inv_reportDecodeError (inv_atExecute hinv) hr.1 (fetch_range hf).2 op) true
  | executed i u hi hx e =>
    obtain ⟨⟨hrun, -, hlt⟩, op, hf, hd⟩ := hi
    have hu : Inv u := inv_exec (inv_atExecute hinv) hrun hf hd hlt hx
    obtain ⟨p, hp⟩ := exists_present_of_ite_requestFrame u
    rw [e, hp]
    exact inv_present hu p

end Sys2Proof.Machine
end
